-- ==== Sys2Proof/Word.lean ====
section
/-! DEFINITION. The words and the numbered things of the Gresholt GS-1216 (00_scope.md, 11_message_and_lane_formats.md). -/

namespace Sys2Proof

/-- A word exchanged with the outside: every one is 32 bits wide (11_message_and_lane_formats.md). -/
abbrev Word := BitVec 32

/-- The payload of a message slot word, bits 27:0 (R214). -/
abbrev Payload := BitVec 28

/-- One auditorium, 0 to 11. -/
abbrev Room := Fin 12

/-- One output channel, or one programme channel, of a room, 0 to 15. -/
abbrev Chan := Fin 16

/-- One of the 256 feed lanes (R31). -/
abbrev Lane := Fin 256

end Sys2Proof
end

