-- ==== Sys2Proof/Syntax.lean ====
section
/-! DEFINITION. The commands of the part: one constructor for each row of spec/opcode_table.json, with its operands. -/

namespace Sys2Proof

/-- The fields of a booth message that its START word and its kind word carry beside the declared length and the
kind code (R215). -/
structure Header where
  /-- Sender of the message, 0 to 63. -/
  originator : BitVec 6
  /-- Privilege, 0 the most privileged. -/
  level : BitVec 2
  /-- Room code: 0 to 11, 15 for NONE. -/
  room : BitVec 4
  /-- Number chosen by the sender and returned in the reply. -/
  tag : BitVec 16
  deriving DecidableEq, Repr

/-- The order in which the rooms take the timecode of a frame, or of its absence (R1, R44). -/
structure FrameOrder where
  /-- The rooms to be taken first; the others follow in ascending order. -/
  rooms : List Room
  /-- The rooms that read their words of the frame, programme and timecode, later in the sample period (R41, R129). -/
  later : List Room
  deriving DecidableEq, Repr

/-- The order of the events of one sample period (R1): where the chains and the block end stand among them. -/
structure PeriodOrder where
  /-- Where the period ends with the command, the rooms that take the counts that run out first; the others follow in ascending order.
  Otherwise the rooms that read now the words that they have put off (R41). -/
  rooms : List Room
  /-- In the 480th period of a meter block, the block end comes ahead of the events that the command takes (R117). -/
  blockFirst : Bool
  /-- The rooms whose chains come ahead of every event of the period that is still to come (R58, R81, R101). -/
  ahead : List Room
  /-- The period ends with the command. Otherwise further commands of the same period follow. -/
  closes : Bool
  deriving DecidableEq, Repr

/-- The commands: what reaches the part from outside, and the events that its own counts bring about. Each docstring
is the row's summary in spec/opcode_table.json and the rule the row names. A request row carries its header and its
body words as sent, so that a message of a wrong length can be written too. An `order` names the rooms to be taken
first; the rooms it does not name follow in ascending order. -/
inductive Instr where
  /-- The RESET line returns every record to its full-reset value, empties the management queues and starts the
  Table Store's initialisation. (R30) `supplyLine`: the SUPPLY WARNING line stands asserted when the reset ends
  (R210). -/
  | fullReset (supplyLine : Bool)
  /-- Assertion of the SUPPLY WARNING line moves LIVE rooms into supply-ramp, ends proofs, puts every cursor at
  base and raises a SUPPLY notice. (R27) `order`: the order in which the rooms act; `supplyFirst`: the SUPPLY
  notice enters the queue before the ROOM_STATE notices (R27 allows either). -/
  | supplyWarningAsserted (order : List Room) (supplyFirst : Bool)
  /-- Release of the SUPPLY WARNING line raises a SUPPLY notice, places every cursor against its last frame and
  lets the timers count again. (R28) -/
  | supplyWarningReleased
  /-- An inbound feed trunk frame is taken: its 256 lane words are checked and concealed, timecode is classified,
  and its four message slot words are assembled. (R31) The 256 lane words (R213), the four slot words (R214), and
  the order in which the rooms' timecode is taken. -/
  | feedTrunkFrame (lanes : Vector Word 256) (slots : Vector Word 4) (order : FrameOrder)
  /-- A sample period with no feed trunk frame counts every lane as invalid and breaks any message assembly in
  progress. (R31) `order`: as in FEED_TRUNK_FRAME. -/
  | missingFeedFrame (order : FrameOrder)
  /-- A room's rack word, or the present-no word of a missing rack frame, is taken for presence, wake and pilot
  return. (R8) The room and its rack word (R213); `none` in a sample period without a rack trunk frame (R8). -/
  | rackWord (r : Room) (w : Option Word)
  /-- Each sample period the channel chains run, ramps, fades, dips and timers advance one step, and one rack
  trunk frame leaves the part. (R53) `lines`: the level of contact input `i` in bit `i`, 1 for HIGH (R176);
  `order`: the order in which the period takes its rooms, its chains and a meter block end. -/
  | samplePeriod (lines : BitVec 16) (order : PeriodOrder)
  /-- The outbound sender fills the four outbound slots of the frame, with the reply first and then the oldest
  notice, and sets the hold mark. (R203) -/
  | outboundFeedFrame
  /-- A booth message completes its assembly and becomes a request that joins the request queue, or is discarded
  if the queue is full. (R188) A whole booth message: the fields of its START and kind words (R215) and its body
  words. -/
  | boothMessage (h : Header) (kind : BitVec 6) (body : List Payload)
  /-- The settling count reaches 4,800 and the LISTEN room moves to phase debouncing. (R15) -/
  | settlingEnd (r : Room)
  /-- The debounce run reaches 12,000 and the room enters READY. (R16) `w`: the rack word, present yes, that
  completes the run. -/
  | debounceComplete (r : Room) (w : Word)
  /-- The rack absence run reaches 2,400 and a rack loss is taken in the room's state, as R10, R11 or R12 give.
  (R9) `w`: the rack word, present no, that completes the run; `none` for a missing rack frame. -/
  | rackLoss (r : Room) (w : Option Word)
  /-- A pilot attempt reaches period 1,920 without a passing return and fails, so a retry begins, the channel
  becomes FAILED, or the proof ends. (R18) -/
  | pilotAttemptTimeout (r : Room)
  /-- A path ramp reaches step N and the room settles in LIVE, PARKED or OFF according to the ramp's phase. (R25)
  -/
  | pathRampEnd (r : Room)
  /-- A fade reaches its last step, g equals its end value, and the fade becomes none. (R61) -/
  | fadeEnd (r : Room)
  /-- The dip factor reaches 0, every filled pending slot is applied, and the ascent begins. (R67) -/
  | dipBottom (r : Room)
  /-- The dip factor reaches 65,536, the dip becomes IDLE, and a follow-on descent begins if any slot is filled.
  (R67) -/
  | dipAscentEnd (r : Room)
  /-- A room's timecode absence run reaches 2,400 and its timecode state becomes LOST. (R46) -/
  | timecodeLoss (r : Room)
  /-- A room's still run reaches 6,000 in RUNNING and the timecode state becomes STOPPED. (R45) `same`: the period
  gave the last frame again (R45); otherwise it gave no value (R46). -/
  | timecodeStillExpiry (r : Room) (same : Bool)
  /-- A meter block of 480 periods completes: lanes are judged for loss, rooms are evaluated, RACK conditions are
  judged, and the block number gains one. (R117) `order`: the order in which the rooms are evaluated (R126 allows
  any). -/
  | meterBlockEnd (order : List Room)
  /-- The Cue Engine takes one room's raisings from a block end as one event and fires the matching ALARM cues in
  order. (R156) -/
  | alarmHandover (r : Room)
  /-- A room timer's remaining count reaches 0, so the timer stops or reloads and its target cue fires or is
  orphaned. (R167) -/
  | timerExpiry (r : Room) (t : Fin 4)
  /-- A contact input's change run reaches 960, making a debounced RISE or FALL that is announced and handed to
  the owning room. (R177) -/
  | contactEdge (i : Fin 16)
  /-- In the 576th period after a full reset the Table Store becomes READY. (R206) -/
  | tableStoreInitEnd
  /-- In the 96th period after its start the engine restart ends. (R208) -/
  | restartEnd
  /-- Returns the part identity, budget, committed total, store, restart and supply states, block number and queue
  lengths. (R211) -/
  | readPart (h : Header) (body : List Payload)
  /-- Returns the room record and the fields that other chapters add to it. (R4) -/
  | readRoom (h : Header) (body : List Payload)
  /-- Returns the lane counters of a range of lanes together with the part-wide and management counters. (R37) -/
  | readCounts (h : Header) (body : List Payload)
  /-- Returns last P, last C and last LOSS of each channel and the room's last evaluated block. (R120) -/
  | readMeters (h : Header) (body : List Payload)
  /-- Returns alarm list entries and, for a named room, its mask, unlisted count and conditions. (R141) -/
  | readAlarms (h : Header) (body : List Payload)
  /-- Returns list and draft lengths, used count, cursor, base, timers and the requested entries. (R149) -/
  | readCues (h : Header) (body : List Payload)
  /-- Returns one channel's slots, tags and trim, and the counts and status of the bank. (R105) -/
  | readBank (h : Header) (body : List Payload)
  /-- Returns a steering profile's state, parameters, one row and its in-service status per room. (R80) -/
  | readProfile (h : Header) (body : List Payload)
  /-- Returns the whole state of the Contact Unit. (R186) -/
  | readContacts (h : Header) (body : List Payload)
  /-- A go request is judged by the room's state and phase and, if accepted, starts the sequence toward its
  target. (R14) -/
  | go (h : Header) (body : List Payload)
  /-- Writes the fitted set, proof limits and policy, clears the proof record and sets proven to no. (R29) -/
  | setRoom (h : Header) (body : List Payload)
  /-- Sets a room's guard level. (R201) -/
  | setGuard (h : Header) (body : List Payload)
  /-- Writes a room's MAIN or SPARE source map. (R39) -/
  | setSourceMap (h : Header) (body : List Payload)
  /-- Hands a source change to the room's dip machine. (R40) -/
  | selectSource (h : Header) (body : List Payload)
  /-- Writes one entry of a room's format table, subject to the service and budget checks. (R71) -/
  | setFormatEntry (h : Header) (body : List Payload)
  /-- Checks that the target profile is ready and hands a format change to the dip machine. (R73) -/
  | selectFormat (h : Header) (body : List Payload)
  /-- Clears a steering profile's rows and makes it EMPTY. (R76) -/
  | clearProfile (h : Header) (body : List Payload)
  /-- Loads one row of a steering profile and updates the profile's state. (R77) -/
  | loadProfileRow (h : Header) (body : List Payload)
  /-- Writes a profile's floor, attack shift and release shift, clamped. (R78) -/
  | setProfileParams (h : Header) (body : List Payload)
  /-- Writes a run of entries of the shared fader law table. (R59) -/
  | loadFaderLaw (h : Header) (body : List Payload)
  /-- Sets the fader step and, unless the room is muted, begins a fade to its law entry. (R62) -/
  | setGain (h : Header) (body : List Payload)
  /-- Sets mute and begins a 480-period fade to 0 or back to the step's gain. (R63) -/
  | setMute (h : Header) (body : List Payload)
  /-- Writes and tags sections of one channel in the standby bank, subject to the budget. (R93) -/
  | loadSections (h : Header) (body : List Payload)
  /-- Writes the sixteen trims of the standby bank. (R95) -/
  | setTrims (h : Header) (body : List Payload)
  /-- Clears the standby bank to EMPTY slots and unity trims. (R96) -/
  | clearBank (h : Header) (body : List Payload)
  /-- Copies the bank in service into the standby bank. (R97) -/
  | copyBank (h : Header) (body : List Payload)
  /-- Hands a bank change to the room's dip machine. (R100) -/
  | selectBank (h : Header) (body : List Payload)
  /-- Writes alarm table entries for a set of channels and quietens their non-raised conditions. (R122) -/
  | setAlarmEntry (h : Header) (body : List Payload)
  /-- Acknowledges one condition or all conditions of a room, making raised conditions HELD_ACK and removing their
  entries. (R135) -/
  | ackAlarm (h : Header) (body : List Payload)
  /-- Replaces a room's alarm mask. (R128) -/
  | maskAlarms (h : Header) (body : List Payload)
  /-- Empties a room's draft. (R145) -/
  | cueDraftClear (h : Header) (body : List Payload)
  /-- Appends checked cue entries to a room's draft. (R146) -/
  | cueDraftAppend (h : Header) (body : List Payload)
  /-- Makes the draft the room's list and places the cursor. (R147) -/
  | cueCommit (h : Header) (body : List Payload)
  /-- Fires a named cue of the room's list on request. (R158) -/
  | cueGo (h : Header) (body : List Payload)
  /-- Puts the room's cursor at base without firing. (R155) -/
  | cueRewind (h : Header) (body : List Payload)
  /-- Starts or restarts a room timer. (R166) -/
  | timerStart (h : Header) (body : List Payload)
  /-- Stops a room timer. (R169) -/
  | timerStop (h : Header) (body : List Payload)
  /-- Sets the owner of a contact input or output. (R180) -/
  | setContactOwner (h : Header) (body : List Payload)
  /-- Sets a contact output ON or OFF by request. (R183) -/
  | setContact (h : Header) (body : List Payload)
  /-- Issues its reply and begins a 96-period restart that re-initialises the running state of every block. (R207)
  -/
  | engineRestart (h : Header) (body : List Payload)
  /-- A request whose kind code names no kind of Table 10-1 is taken from the request queue, refused with
  MALFORMED at step 1, and still receives its one reply. (R196) `kind`: the code as received, one of 0 and 41 to
  63. -/
  | unknownKindRequest (h : Header) (kind : BitVec 6) (body : List Payload)
  deriving DecidableEq, Repr

end Sys2Proof
end

