-- ==== Sys2Proof/Config.lean ====
section
/-! DEFINITION. The fixed limits and durations of the part. Every one is a number of the spec; the part has no
choice that an implementation makes for itself, and the spec leaves no result without a value, so no free value stands here. -/

namespace Sys2Proof.Config

/-- Sample periods of phase settling (R15). -/
@[simp] def settling : Nat := 4800
/-- Consecutive present rack words that complete a debounce (R16). -/
@[simp] def debounce : Nat := 12000
/-- Consecutive absent rack words that make a rack loss (R9). -/
@[simp] def rackLoss : Nat := 2400
/-- Sample periods of one pilot attempt (R18). -/
@[simp] def pilotAttempt : Nat := 1920
/-- The attempts one channel may use in a proof (R18). -/
@[simp] def maxAttempts : Nat := 3
/-- The magnitude of the pilot (R18). -/
@[simp] def pilotLevel : Int := 838861
/-- Length of the path ramps ramping-in, ramping-out-park and ramping-out-off (R25). -/
@[simp] def rampLen : Nat := 480
/-- Length of the supply ramp (R25). -/
@[simp] def supplyRampLen : Nat := 192
/-- Unity of the gains, of the dip factor and of the path factor (Table 3-1). -/
@[simp] def unity : Nat := 65536
/-- The greatest gain, trim or fader law entry (Table 3-1). -/
@[simp] def maxGain : Nat := 131071
/-- The greatest sample, coefficient and return level (Table 3-1, Table 1-1). -/
@[simp] def maxSample : Int := 8388607
/-- The least sample and coefficient (Table 3-1). -/
@[simp] def minSample : Int := -8388608
/-- The greatest magnitude of a sample (R83, R118). -/
@[simp] def maxMagnitude : Nat := 8388608
/-- The coefficient that stands for 1.0 (Table 3-1). -/
@[simp] def oneCoef : Int := 4194304
/-- Length of the fade that mute and unmute begin (R63). -/
@[simp] def muteFade : Nat := 480
/-- Steps of a dip's descent, and of its ascent (R65). -/
@[simp] def dipSteps : Nat := 240
/-- Periods without a timecode value that make a loss (R46). -/
@[simp] def timecodeLoss : Nat := 2400
/-- Periods without a change of the timecode value that make STOPPED (R45). -/
@[simp] def timecodeStill : Nat := 6000
/-- Sample periods of a meter block (R117). -/
@[simp] def meterBlock : Nat := 480
/-- Entries the alarm list may hold (R130). -/
@[simp] def alarmListMax : Nat := 48
/-- Evaluated blocks a mask may cover (R128). -/
@[simp] def maskMax : Nat := 6000
/-- Operations of one sample period (R109). -/
@[simp] def budget : Nat := 1280
/-- The decode term of a room with an MX4 entry (R109). -/
@[simp] def decodeCost : Nat := 40
/-- Entry places of the cue store (R142). -/
@[simp] def cueStore : Nat := 512
/-- Entries a list or a draft may hold (R142). -/
@[simp] def cueListMax : Nat := 128
/-- Consecutive differing samples that make a contact edge (R177). -/
@[simp] def contactDebounce : Nat := 960
/-- Places of the request queue (R190). -/
@[simp] def queueMax : Nat := 4
/-- Places of the notice queue (R205). -/
@[simp] def noticeMax : Nat := 32
/-- The limit at which the drop count saturates (R205). -/
@[simp] def dropMax : Nat := 255
/-- The greatest body length of a request that step 1 admits, and of a reply (R196, R202). -/
@[simp] def bodyMax : Nat := 72
/-- Sample periods of the Table Store's initialisation (R206). -/
@[simp] def storeInit : Nat := 576
/-- Sample periods of an engine restart (R207). -/
@[simp] def restart : Nat := 96
/-- The payload that codes NONE, and ALL in ACK_ALARM (R215). -/
@[simp] def noneCode : Nat := 0xFFFFFFF

end Sys2Proof.Config
end

