-- ==== Sys2Proof/Machine/State.lean ====
section
/-! DEFINITION. The state of the part: every record the spec names, as plain data, block by block, and the state right
after a full reset. Fields the model adds for itself say so ("MODEL"); INVENTORY.md lists every field with its rule. -/

namespace Sys2Proof.Machine

/-! ### Why a command may stop -/

/-- The spec names no event that stops the part: every frame, word, edge, count and request has an effect or a reply
(the results of Table 10-3 are replies, not faults). So no command raises a fault, which is safe. -/
inductive Fault
  deriving DecidableEq, Repr

/-- The only refusal: a command without a meaning. -/
inductive Refusal where
  /-- Raised by the dispatcher alone, for a row of the table that has no meaning; safe. No row is left so. -/
  | notModelled (mnemonic : String)
  deriving DecidableEq, Repr

/-! ### Rooms and the Output Path (01) -/

/-- Room states, in the order of their codes (R217). -/
inductive RoomState where
  | off | listen | ready | prove | live | parked | halted
  deriving DecidableEq, Repr

/-- Phases, in the order of their codes (R217). -/
inductive Phase where
  | none | settling | debouncing | proving | rampingIn | rampingOutPark | rampingOutOff | supplyRamp
  deriving DecidableEq, Repr

/-- Proof policies (Table 1-1). -/
inductive Policy where
  | stopAtFirst | testAll
  deriving DecidableEq, Repr

/-- Result of one channel in the proof record (Table 1-1). -/
inductive ProofResult where
  | untested | passed | failed
  deriving DecidableEq, Repr

/-- One channel of the proof record (Table 1-1). -/
structure ProofEntry where
  result : ProofResult
  attempts : Nat
  deriving DecidableEq, Repr

/-- Halt causes (Table 1-1). -/
inductive HaltCause where
  | none | rackLost
  deriving DecidableEq, Repr

/-- The four fields of a rack word (R8, R213). -/
structure RackWord where
  present : Bool
  wake : Bool
  valid : Bool
  level : Nat
  deriving DecidableEq, Repr

/-- A path ramp in flight: start, end, length and step (R3, R25). -/
structure Ramp where
  p0 : Nat
  p1 : Nat
  len : Nat
  n : Nat
  deriving DecidableEq, Repr

/-- The channel under test and the number of its attempt (R3). -/
structure ProofPos where
  chan : Chan
  attempt : Nat
  deriving DecidableEq, Repr

/-- The Room Path Controller's part of the room record (Table 1-1) and its working state (R3). The last wake of R3 is
the wake field of the last rack word and has its home there. -/
structure Path where
  state : RoomState
  phase : Phase
  proven : Bool
  /-- Fitted set, bit `k` for channel `k`. -/
  fitted : BitVec 16
  proofMin : Nat
  proofMax : Nat
  policy : Policy
  record : Vector ProofEntry 16
  halt : HaltCause
  /-- Path factor. -/
  p : Nat
  /-- Sequence count of settling, of the debounce run and of the pilot attempt; the count of a path ramp is its step. -/
  seqCount : Nat
  rackAbsence : Nat
  proofPos : Option ProofPos
  ramp : Option Ramp
  lastRack : RackWord
  /-- MODEL: the attempt that begins in the following sample period (R18, R19). -/
  nextAttempt : Option ProofPos
  /-- MODEL: the debounce run takes its first rack word in the next sample period (R15). -/
  debounceHeld : Bool
  /-- MODEL: the room entered LIVE or PARKED from another state during the meter block in progress (R119). -/
  enteredInBlock : Bool
  /-- MODEL: the room's rack word of the sample period in progress has been taken (R8). -/
  rackTaken : Bool
  /-- MODEL: the channel and the attempt's period of the pilot whose return a rack word of the sample period in progress has been
  judged for (R18). -/
  pilotSent : Option (Chan × Nat)
  deriving DecidableEq, Repr

/-! ### Lanes, Sources and Timecode (02) -/

/-- The two source maps of a room (R38). -/
inductive Source where
  | main | spare
  deriving DecidableEq, Repr

/-- A source map: the feed lane of each programme channel, and the timecode lane (R38). -/
structure SourceMap where
  prog : Vector (Option Lane) 16
  tc : Option Lane
  deriving DecidableEq, Repr

/-- State of one feed lane (Table 2-1). -/
structure LaneRec where
  hold : Int
  mark : Bool
  checkErr : BitVec 32
  usedErr : BitVec 32
  /-- MODEL: the used-lane error of the latest frame has been counted, which a frame counts once however many rooms read the lane
  (R34). -/
  concealed : Bool
  deriving DecidableEq, Repr

/-- Timecode states, in the order of their codes (R217). -/
inductive TcState where
  | absent | running | stopped | lost
  deriving DecidableEq, Repr

/-- Timecode record of a room (Table 2-2). -/
structure Timecode where
  state : TcState
  last : Option Nat
  still : Nat
  absence : Nat
  /-- MODEL: the room's timecode of the sample period in progress, a value or none, has been taken (R44). -/
  taken : Bool
  deriving DecidableEq, Repr

/-! ### Signal Arithmetic (03) -/

/-- A fade in flight (R60). -/
structure Fade where
  g0 : Nat
  g1 : Nat
  len : Nat
  n : Nat
  deriving DecidableEq, Repr

/-- Gain state of a room: its fader step and mute (Table 1-1), its gain and fade (R60). -/
structure Gain where
  step : Fin 101
  mute : Bool
  g : Nat
  fade : Option Fade
  deriving DecidableEq, Repr

/-- Dip stages (R65). -/
inductive DipStage where
  | idle | descent | ascent
  deriving DecidableEq, Repr

/-- The two banks of a room (R87). -/
inductive BankName where
  | a | b
  deriving DecidableEq, Repr

/-- Dip state of a room (R65). Step 0 stands for a descent or ascent that has begun and not yet stepped, and for IDLE. -/
structure Dip where
  stage : DipStage
  step : Nat
  d : Nat
  fmtSlot : Option (Fin 4)
  srcSlot : Option Source
  bankSlot : Option BankName
  followOn : Bool
  deriving DecidableEq, Repr

/-- Filter history of one slot (R55). -/
structure Hist where
  x1 : Int
  x2 : Int
  y1 : Int
  y2 : Int
  deriving DecidableEq, Repr

/-- Filter history of one bank: every slot of every channel (R58). -/
abbrev History := Vector (Vector Hist 8) 16

/-! ### Surround Decoding (04) -/

/-- Modes of a format entry (R69). -/
inductive Mode where
  | discrete | mx4
  deriving DecidableEq, Repr

/-- The decode outputs, in the order of their codes in an output map (R215). -/
inductive DecOut where
  | l | c | r | s
  deriving DecidableEq, Repr

/-- Source of an output channel in an output map (R69). -/
inductive OutSrc where
  | program (c : Chan)
  | decode (o : DecOut)
  | none
  deriving DecidableEq, Repr

/-- One entry of a room's format table (R69). -/
structure FormatEntry where
  mode : Mode
  profile : Fin 4
  map : Vector OutSrc 16
  deriving DecidableEq, Repr

/-- Envelopes and dominance indices of a room (R81). -/
structure DecodeState where
  eL : Int
  eR : Int
  eS : Int
  eD : Int
  lr : Int
  cs : Int
  deriving DecidableEq, Repr

/-- The rows of a profile, in the order of their codes (R215). -/
inductive Row where
  | l | r | c | s
  deriving DecidableEq, Repr

/-- A steering profile (R75). Its state follows from the rows loaded and is computed from them. -/
structure Profile where
  rowL : Vector (Int × Int) 33
  rowR : Vector (Int × Int) 33
  rowC : Vector (Int × Int) 33
  rowS : Vector (Int × Int) 33
  /-- Rows loaded, bits L, R, C, S from bit 0. -/
  loaded : BitVec 4
  floor : Nat
  attack : Nat
  release : Nat
  deriving DecidableEq, Repr

/-! ### Room Equalisation (05) -/

/-- Section tags (R87). -/
inductive Tag where
  | empty | unity | rejected | active
  deriving DecidableEq, Repr

/-- The five coefficients of a section (R87). -/
structure Coefs where
  b0 : Int
  b1 : Int
  b2 : Int
  a1 : Int
  a2 : Int
  deriving DecidableEq, Repr

/-- A section slot: its coefficients and its tag (R87). -/
structure SlotRec where
  coefs : Coefs
  tag : Tag
  deriving DecidableEq, Repr

/-- A channel record of a bank (R87). -/
structure ChanEq where
  slots : Vector SlotRec 8
  trim : Nat
  deriving DecidableEq, Repr

/-- A bank: its channel records and its two counts (R87). -/
structure Bank where
  chans : Vector ChanEq 16
  active : Nat
  rejected : Nat
  deriving DecidableEq, Repr

/-! ### Meters and Alarms (07) -/

/-- The alarm kinds of a channel, in the order of their codes (R215). -/
inductive LevelKind where
  | silence | over | clip | loss
  deriving DecidableEq, Repr

/-- The alarm kinds, in the order of their codes (R215). -/
inductive AlarmKind where
  | silence | over | clip | loss | rack
  deriving DecidableEq, Repr

/-- A condition of a room: a channel with one of its four kinds, or the RACK condition, whose channel is ROOM (R123). -/
inductive CondId where
  | level (c : Chan) (k : LevelKind)
  | rack
  deriving DecidableEq, Repr

/-- Condition phases (R123). -/
inductive CondPhase where
  | quiet | pending | raised | heldAck
  deriving DecidableEq, Repr

/-- A condition: its phase, its run count, and whether it is raised without an entry (R123, R132). -/
structure Cond where
  phase : CondPhase
  run : Nat
  unlisted : Bool
  deriving DecidableEq, Repr

/-- The four conditions of one channel (R123). -/
structure ChanConds where
  onSilence : Cond
  onOver : Cond
  onClip : Cond
  onLoss : Cond
  deriving DecidableEq, Repr

/-- Meter state of one channel (R118) and its clip count (R52). -/
structure Meter where
  clips : Nat
  peak : Nat
  lastP : Nat
  lastC : Nat
  lastLoss : Bool
  deriving DecidableEq, Repr

/-- Alarm table entry of one channel (R121). -/
structure AlarmCfg where
  /-- Armed kinds, bits SILENCE, OVER, CLIP, LOSS from bit 0. -/
  armed : BitVec 4
  silenceFloor : Nat
  silenceHold : Nat
  overLevel : Nat
  overHold : Nat
  clipLimit : Nat
  deriving DecidableEq, Repr

/-- Alarm mask of a room (R128). -/
structure Mask where
  kinds : BitVec 4
  remaining : Nat
  deriving DecidableEq, Repr

/-- An entry of the alarm list (R130). -/
structure AlarmEntry where
  room : Room
  cond : CondId
  active : Bool
  firstRaised : BitVec 32
  lastRaised : BitVec 32
  count : Nat
  p : Nat
  deriving DecidableEq, Repr

/-- The raisings of one room's evaluation at one block end, waiting for the Cue Engine (R156). -/
structure Handover where
  room : Room
  conds : List CondId
  deriving DecidableEq, Repr

/-! ### Booth Cues (08) -/

/-- Edges of a contact input (R177, R216). -/
inductive Edge where
  | rise | fall
  deriving DecidableEq, Repr

/-- Channel of an ALARM trigger (Table 8-2). -/
inductive TrigChan where
  | ch (c : Chan)
  | room
  | any
  deriving DecidableEq, Repr

/-- Trigger forms (Table 8-2). -/
inductive Trigger where
  | at (frame : Nat)
  | alarm (kind : AlarmKind) (chan : TrigChan)
  | contact (input : Fin 16) (edge : Edge)
  | manual
  deriving DecidableEq, Repr

/-- Targets of a go request, in the order of their codes (R215). -/
inductive GoTarget where
  | goOff | goListen | goProve | goLive | goPark | goStop
  deriving DecidableEq, Repr

/-- Units of a timer (R165). -/
inductive TimerUnit where
  | sample | frame | second
  deriving DecidableEq, Repr

/-- Cue actions with the fields an entry holds (Table 8-3). -/
inductive Action where
  | setFormat (index : Fin 4)
  | setSource (src : Source)
  | selectBank (bank : BankName)
  | fade (step : BitVec 7) (ms : BitVec 16)
  | mute (yes : Bool)
  | mask (kinds : BitVec 4) (blocks : BitVec 16)
  | contact (output : Fin 24) (on : Bool)
  | go (target : GoTarget)
  | timerStart (timer : BitVec 3) (unit : TimerUnit) (count : BitVec 16) (rep : Bool) (target : Nat)
  | timerStop (timer : BitVec 3)
  deriving DecidableEq, Repr

/-- A cue entry (Table 8-1). -/
structure Cue where
  number : Nat
  trigger : Trigger
  gate : Fin 4
  actions : List Action
  deriving DecidableEq, Repr

/-- What fired a cue (R162). -/
inductive Cause where
  | timecode (jump : Bool) (frame : Nat)
  | alarm (c : CondId)
  | contact (input : Fin 16) (edge : Edge)
  | cueGo (originator : BitVec 6)
  | timer (t : Fin 4)
  deriving DecidableEq, Repr

/-- A timer of a room (R165). -/
structure Timer where
  running : Bool
  unit : TimerUnit
  count : Nat
  rep : Bool
  target : Option Nat
  remaining : Nat
  /-- MODEL: the count has run out in the sample period in progress and the expiry has not been taken (R167). -/
  expiring : Bool
  deriving DecidableEq, Repr

/-! ### Booth Contacts (09) -/

/-- State of a contact input (R176); a level is `true` for HIGH. -/
structure ContactIn where
  owner : Option Room
  stable : Bool
  run : Nat
  edges : BitVec 16
  /-- The line as sampled in the latest sample period (R186). -/
  line : Bool
  /-- MODEL: CONTACT_EDGE has sampled the line for the sample period in progress. -/
  sampled : Bool
  deriving DecidableEq, Repr

/-- What last set a contact output (R182). -/
inductive LastSet where
  | none
  | request (originator : BitVec 6)
  | cue (r : Room) (number : Nat)
  deriving DecidableEq, Repr

/-- State of a contact output (R182). -/
structure ContactOut where
  owner : Option Room
  on : Bool
  lastSet : LastSet
  deriving DecidableEq, Repr

/-! ### The room -/

/-- MODEL: what the chains of a room use as it stood when they were put ahead of further events of their sample period (R58, R81, R101):
the bank in service with its slots and trims, its filter history, the envelopes and indices, the room gain and the dip factor. -/
structure Early where
  bank : Bank
  hist : History
  decode : DecodeState
  g : Nat
  d : Nat
  /-- What the chains write to the history stays: no event has set it to 0 after them (R58). -/
  histStands : Bool
  /-- What the chains write to the envelopes and indices stays: no event has set them to 0 after them (R81). -/
  decodeStands : Bool
  deriving DecidableEq, Repr

/-- Everything the part keeps for one room. -/
structure RoomRec where
  path : Path
  activeFormat : Fin 4
  activeSource : Source
  bankInService : BankName
  guard : Fin 4
  main : SourceMap
  spare : SourceMap
  /-- Current values of the programme channels, from the latest feed frame (R35). -/
  prog : Vector Int 16
  tc : Timecode
  gain : Gain
  dip : Dip
  formats : Vector FormatEntry 4
  decode : DecodeState
  bankA : Bank
  bankB : Bank
  histA : History
  histB : History
  /-- The room's commitment (R109). -/
  commitment : Nat
  /-- The demand of the most recent sample period (R115); of chains put ahead of a swap by the bank they use (assumption 19). -/
  demand : Nat
  meters : Vector Meter 16
  /-- Last evaluated block (R118); every channel takes the same number in the same event, so it has one home. -/
  lastEval : Option (BitVec 32)
  alarmTable : Vector AlarmCfg 16
  conds : Vector ChanConds 16
  rackCond : Cond
  mask : Mask
  /-- Unlisted count (R132). -/
  unlisted : BitVec 16
  list : List Cue
  draft : List Cue
  cursor : Nat
  timers : Vector Timer 4
  /-- MODEL: the chains of the sample period in progress come ahead of the events that follow in it, with what they use (R58, R81,
  R101). -/
  ahead : Option Early
  deriving DecidableEq, Repr

/-! ### In-Band Management (10) -/

/-- Results, with the codes of Table 11-2. -/
inductive Result where
  | ok | malformed | badRoom | notReady | denied | supplyLow | badField | wrongState | seqBusy | inService
  | bankBusy | overBudget | storeFull | order | noSuchCue | notOwner
  deriving DecidableEq, Repr

/-- Stages of the assembly (R188). -/
inductive AsmStage where
  | idle | awaitKind | body
  deriving DecidableEq, Repr

/-- The booth message being gathered (R188). -/
structure Assembly where
  stage : AsmStage
  originator : BitVec 6
  level : BitVec 2
  declared : Nat
  kind : BitVec 6
  room : BitVec 4
  tag : BitVec 16
  body : List Payload
  deriving DecidableEq, Repr

/-- A complete booth message (R188). -/
structure Request where
  originator : BitVec 6
  level : BitVec 2
  kind : BitVec 6
  room : BitVec 4
  tag : BitVec 16
  body : List Payload
  deriving DecidableEq, Repr

/-- A reply (R202); the body is packed as R217 says. -/
structure Reply where
  originator : BitVec 6
  kind : BitVec 6
  result : Result
  tag : BitVec 16
  body : List Payload
  deriving DecidableEq, Repr

/-- The snapshot of a notice (R204). -/
structure Snapshot where
  state : RoomState
  phase : Phase
  format : Fin 4
  source : Source
  bank : BankName
  g : Nat
  tc : TcState
  last : Option Nat
  deriving DecidableEq, Repr

/-- Notice kinds with the fields specific to each (Table 11-3 and the rules listed with R205). -/
inductive NoticeBody where
  | roomState (left : RoomState)
  | rackFound
  | rackGone (left : RoomState)
  | rackWake
  | proofDone (proven : Bool) (record : Vector ProofEntry 16)
  | alarmRaised (c : CondId) (p : Nat) (clips : Nat) (count : Option Nat)
  | alarmCleared (c : CondId) (listed : Bool) (block : BitVec 32)
  | alarmListFull (c : CondId) (unlisted : BitVec 16)
  | cueFired (number : Nat) (trigger : Trigger) (cause : Cause)
  | cueFailed (number : Nat) (cause : Cause) (failed : List (Nat × Result))
  | timerOrphan (t : Fin 4) (target : Nat)
  | timecode (before after : TcState) (lastBefore lastAfter : Option Nat) (jump : Bool)
  | bankSwapped (left entered : BankName)
  | supply (asserted : Bool)
  | contactIn (input : Fin 16) (edge : Edge) (owner : Option Room) (count : BitVec 16)
  | queueOverflow (q : Request)
  | storeReady
  | restarted
  deriving DecidableEq, Repr

/-- A notice (R204): the room it names with its snapshot, its fields and its dropped count. -/
structure Notice where
  room : Option (Room × Snapshot)
  body : NoticeBody
  dropped : Nat
  deriving DecidableEq, Repr

/-- A word of an outbound message before its hold mark and check bit: `true` for START, `false` for DATA (R214). -/
abbrev OutWord := Bool × Payload

/-- The message being sent: the words still to be sent (R203). -/
structure Sending where
  isReply : Bool
  words : List OutWord
  deriving DecidableEq, Repr

/-- The Management Unit (10). -/
structure Mgmt where
  asm : Assembly
  queue : List Request
  holder : Option Reply
  sending : Option Sending
  notices : List Notice
  dropCount : Nat
  discardTotal : BitVec 32
  malformed : BitVec 32
  overflow : BitVec 32
  deriving DecidableEq, Repr

/-- State of the Table Store (R206), with the sample periods of the initialisation elapsed. -/
inductive TableStore where
  | initialising (elapsed : Nat)
  | ready
  deriving DecidableEq, Repr

/-! ### The part -/

/-- The whole part, and the queue of the commands that wait. -/
structure State where
  rooms : Vector RoomRec 12
  lanes : Vector LaneRec 256
  /-- Part-wide check-error total (R32). -/
  checkTotal : BitVec 32
  /-- Fader law table (R59). -/
  law : Vector Nat 101
  profiles : Vector Profile 4
  /-- Committed total (R109). -/
  committedTotal : Nat
  blockNumber : BitVec 32
  /-- Sample periods of the meter block in progress that have passed (R117). -/
  blockPos : Nat
  /-- MODEL: the block has its 480 periods and its block end has not yet been taken (R117). -/
  blockEndDue : Bool
  /-- MODEL: the sample period in progress completes a block whose end has been taken in it; the block that has begun since starts
  with the next period (R117). -/
  blockEnded : Bool
  alarms : List AlarmEntry
  /-- Raisings handed to the Cue Engine and not yet taken (R134, R156, R175). -/
  handovers : List Handover
  inputs : Vector ContactIn 16
  /-- MODEL: no sample period has passed since the full reset, so the inputs have no stable level yet (R176). -/
  inputsFresh : Bool
  outputs : Vector ContactOut 24
  mgmt : Mgmt
  /-- The supply state (R210); `true` for ASSERTED. -/
  supply : Bool
  /-- MODEL: the line stood asserted at the end of the full reset; the assertion is taken in the first sample period (R210). -/
  supplyDue : Bool
  store : TableStore
  /-- An engine restart in progress, with the sample periods elapsed (R208). -/
  restart : Option Nat
  /-- MODEL: the counts have advanced for the sample period in progress, which has not closed yet. -/
  periodOpen : Bool
  /-- MODEL: the rooms that read the lane words of the period's frame later in the period (R1, R41, R44). -/
  waiting : List Room
  /-- MODEL: the lane words of the latest frame, which those rooms read (R31). -/
  words : Vector Word 256
  /-- MODEL: no second sample period has opened since the full reset, so an outbound frame is that of the first (R209). -/
  outFresh : Bool
  /-- The latest outbound rack trunk frame (R42). -/
  rackFrame : Vector Word 192
  /-- The slot words of the latest outbound feed trunk frame (R203). -/
  outFrame : Vector Word 4
  /-- The commands that wait, first in, first out. -/
  pending : List Instr
  deriving DecidableEq, Repr

/-! ### The state after a full reset -/

/-- The proof record after a reset: every channel UNTESTED, 0 (Table 1-1). -/
def clearRecord : Vector ProofEntry 16 := Vector.replicate 16 ⟨.untested, 0⟩

/-- The rack word of a missing rack frame (R8), which is also the last rack word after a reset (R3). -/
def absentRack : RackWord := ⟨false, false, false, 0⟩

/-- Path fields after a full reset (Table 1-1, R3). -/
def Path.reset : Path :=
  { state := .off, phase := .none, proven := false, fitted := BitVec.allOnes 16, proofMin := 419430,
    proofMax := 1258291, policy := .testAll, record := clearRecord, halt := .none, p := 0, seqCount := 0,
    rackAbsence := 0, proofPos := none, ramp := none, lastRack := absentRack, nextAttempt := none,
    debounceHeld := false, enteredInBlock := false, rackTaken := false, pilotSent := none }

/-- A source map with every entry NONE (R38). -/
def SourceMap.empty : SourceMap := ⟨Vector.replicate 16 none, none⟩

/-- Gain state after a full reset (Table 1-1, R60). -/
def Gain.reset : Gain := ⟨70, false, Config.unity, none⟩

/-- Dip state after either reset (R65). -/
def Dip.reset : Dip := ⟨.idle, 0, Config.unity, none, none, none, false⟩

/-- Decode state after either reset and on an entry into MX4 (R81). -/
def DecodeState.zero : DecodeState := ⟨0, 0, 0, 0, 0, 0⟩

/-- A format entry after a full reset: DISCRETE, profile 0, channel k from PROGRAM(k) (R69). -/
def FormatEntry.reset : FormatEntry := ⟨.discrete, 0, Vector.ofFn fun k => .program k⟩

/-- History of a bank with every value 0 (R58). -/
def History.zero : History := Vector.replicate 16 (Vector.replicate 8 ⟨0, 0, 0, 0⟩)

/-- A channel record of a cleared bank (R87, R96). -/
def ChanEq.cleared : ChanEq := ⟨Vector.replicate 8 ⟨⟨0, 0, 0, 0, 0⟩, .empty⟩, Config.unity⟩

/-- A cleared bank (R87, R96). -/
def Bank.cleared : Bank := ⟨Vector.replicate 16 ChanEq.cleared, 0, 0⟩

/-- Meter state after a full reset (R52, R118). -/
def Meter.reset : Meter := ⟨0, 0, 0, 0, false⟩

/-- Alarm table entry after a full reset (R121). -/
def AlarmCfg.reset : AlarmCfg := ⟨0, 8389, 300, 8300000, 5, 8⟩

/-- A QUIET condition with a run count of 0 (R123). -/
def Cond.quiet : Cond := ⟨.quiet, 0, false⟩

/-- The conditions of a channel, all QUIET. -/
def ChanConds.quiet : ChanConds := ⟨.quiet, .quiet, .quiet, .quiet⟩

/-- No mask (R128). -/
def Mask.none : Mask := ⟨0, 0⟩

/-- A timer after a full reset (R165). -/
def Timer.reset : Timer := ⟨false, .sample, 1, false, none, 0, false⟩

/-- A room after a full reset. -/
def RoomRec.reset : RoomRec :=
  { path := .reset, activeFormat := 0, activeSource := .main, bankInService := .a, guard := 2,
    main := .empty, spare := .empty, prog := Vector.replicate 16 0,
    tc := ⟨.absent, none, 0, 0, false⟩, gain := .reset, dip := .reset,
    formats := Vector.replicate 4 .reset, decode := .zero, bankA := .cleared, bankB := .cleared,
    histA := .zero, histB := .zero, commitment := 0, demand := 0, meters := Vector.replicate 16 .reset,
    lastEval := none, alarmTable := Vector.replicate 16 .reset, conds := Vector.replicate 16 .quiet,
    rackCond := .quiet, mask := .none, unlisted := 0, list := [], draft := [], cursor := 0,
    timers := Vector.replicate 4 .reset, ahead := none }

/-- A steering profile after a full reset (R75). -/
def Profile.reset : Profile :=
  ⟨Vector.replicate 33 (0, 0), Vector.replicate 33 (0, 0), Vector.replicate 33 (0, 0),
    Vector.replicate 33 (0, 0), 0, 2048, 3, 9⟩

/-- The assembly in stage IDLE, after a full reset, a discard or a completion: the spec gives the stage alone (R188), and the other
fields stand at 0 and the body empty. DESIGN CHOICE, assumption 10. -/
def Assembly.idle : Assembly := ⟨.idle, 0, 0, 0, 0, 0, 0, []⟩

/-- The Management Unit after a full reset (R209). -/
def Mgmt.reset : Mgmt := ⟨.idle, [], none, none, [], 0, 0, 0, 0⟩

/-- The state right after a full reset with the SUPPLY WARNING line released (R2, R3, R30, R206, R209 and the reset
values of each record). The levels of the contact inputs, whose stable level the spec takes from the lines in the first
sample period (R176), stand at LOW until then; the two outbound frames stand as frames that carry 0 and EMPTY.
DESIGN CHOICE, assumption 10. -/
def State.reset : State :=
  { rooms := Vector.replicate 12 .reset, lanes := Vector.replicate 256 ⟨0, false, 0, 0, false⟩, checkTotal := 0,
    law := Vector.ofFn fun f => 65536 * f.val / 70, profiles := Vector.replicate 4 .reset,
    committedTotal := 0, blockNumber := 0, blockPos := 0, blockEndDue := false, blockEnded := false, alarms := [], handovers := [],
    inputs := Vector.replicate 16 ⟨none, false, 0, 0, false, false⟩, inputsFresh := true,
    outputs := Vector.replicate 24 ⟨none, false, .none⟩, mgmt := .reset, supply := false, supplyDue := false,
    store := .initialising 0, restart := none, periodOpen := false, waiting := [], words := Vector.replicate 256 0#32,
    outFresh := true, rackFrame := Vector.replicate 192 0x3000000#32, outFrame := Vector.replicate 4 0#32, pending := [] }

end Sys2Proof.Machine
end

