-- ==== Sys2Proof/Machine/Flags.lean ====
section
/-! DEFINITION. The words on the trunks, bit by bit: check bits, lane words, rack words and slot words (R32, R187, R213, R214). -/

namespace Sys2Proof.Machine

/-- The number of ones among the low `n` bits of `w` is odd. -/
def parity (w : Nat) : Nat → Bool
  | 0 => false
  | n + 1 => xor (w.testBit n) (parity w n)

/-! ### Lane words (R32, R213) -/

/-- The valid marker of a lane word, bit 24 (R213). -/
def laneValid (w : Word) : Bool := w.getLsbD 24

/-- The check bit is correct: the ones in bits 25:0 are even (R32, R213). -/
def laneCheckOk (w : Word) : Bool := !parity w.toNat 26

/-- A lane word is good when it is valid and its check bit is correct (R32). -/
def laneGood (w : Word) : Bool := laneValid w && laneCheckOk w

/-- A valid word whose check bit is not correct counts a check error (R32). -/
def laneCheckError (w : Word) : Bool := laneValid w && !laneCheckOk w

/-- The sample of a lane word, bits 23:0 in two's complement (R213). -/
def laneSample (w : Word) : Int := (w.extractLsb' 0 24).toInt

/-- The timecode value of a lane word, bits 23:0 unsigned (R44, R213). -/
def laneFrame (w : Word) : Nat := (w.extractLsb' 0 24).toNat

/-- The rack lane word the part sends for a sample: valid, with a correct check bit, bits 31:26 at 0 (R42, R213). -/
def laneWordOut (x : Int) : Word :=
  let w := (BitVec.ofInt 24 x).setWidth 32 ||| 0x1000000#32
  if parity w.toNat 26 then w ||| 0x2000000#32 else w

/-! ### Rack words (R8, R213) -/

/-- The fields of a rack word (R213). -/
def RackWord.ofWord (w : Word) : RackWord :=
  ⟨w.getLsbD 25, w.getLsbD 24, w.getLsbD 23, (w.extractLsb' 0 23).toNat⟩

/-- The rack word of a room in a sample period; without a rack trunk frame it is the absent word of R8. -/
def RackWord.ofFrame : Option Word → RackWord
  | some w => .ofWord w
  | none => absentRack

/-! ### Slot words (R187, R214) -/

/-- The form field, bits 31:30 (R214). -/
def slotForm (w : Word) : Nat := (w.extractLsb' 30 2).toNat

/-- The payload, bits 27:0 (R214). -/
def slotPayload (w : Word) : Payload := w.extractLsb' 0 28

/-- The check bit is correct: the ones in bits 31:0 are even (R214). -/
def slotCheckOk (w : Word) : Bool := !parity w.toNat 32

/-- What an inbound slot word is to the assembly (R187, R214): a START or DATA word with a wrong check bit, and any
word of form 3, is corrupt; an EMPTY word is EMPTY whatever its other bits. -/
inductive SlotWord where
  | empty
  | start (p : Payload)
  | data (p : Payload)
  | corrupt
  deriving DecidableEq, Repr

/-- The inbound slot word by its form and check bit (R214). -/
def SlotWord.ofWord (w : Word) : SlotWord :=
  if slotForm w = 0 then .empty
  else if slotForm w = 3 || !slotCheckOk w then .corrupt
  else if slotForm w = 1 then .start (slotPayload w)
  else .data (slotPayload w)

/-- An outbound slot word with its form, hold mark, payload and a correct check bit (R214). -/
def slotWordOut (form : Nat) (hold : Bool) (p : Payload) : Word :=
  let w := p.setWidth 32 ||| (BitVec.ofNat 32 form <<< 30) ||| (if hold then 0x20000000#32 else 0#32)
  if parity w.toNat 32 then w ||| 0x10000000#32 else w

end Sys2Proof.Machine
end

