-- ==== Sys2Proof/Machine/Operands.lean ====
section
/-! DEFINITION. The operands of requests and cue entries: the request kinds (Table 10-1, Table 11-1), the codes of the
value table (R215), required body lengths (R196, R215, R216) and the packed cue entry (R216). -/

namespace Sys2Proof.Machine

/-! ### Body words -/

/-- Body word `i` as an unsigned number; words are counted from 0. -/
def arg (body : List Payload) (i : Nat) : Nat := (body.getD i 0).toNat

/-- Body word `i` as a coefficient: signed in bits 23:0, bits 27:24 ignored (R215). -/
def coefArg (body : List Payload) (i : Nat) : Int := ((body.getD i 0).extractLsb' 0 24).toInt

/-- A field that may hold NONE: NONE is FFFFFFFh (R215). -/
def isNone (v : Nat) : Bool := v == Config.noneCode

/-- A number below `n`, or nothing: a field that names something and is out of range (R200). -/
def below (n v : Nat) : Option (Fin n) := if h : v < n then some ⟨v, h⟩ else none

/-- A number below `n` or NONE; the outer `none` stands for a value that is neither (R215). -/
def belowOrNone (n v : Nat) : Option (Option (Fin n)) :=
  if isNone v then some none else (below n v).map some

/-- Clamp to a range (Conventions of 00_scope.md, R200). -/
def clamp (lo hi v : Nat) : Nat := max lo (min hi v)

/-! ### Codes of the value table (R215) -/

def boolOfCode : Nat → Option Bool
  | 0 => some false | 1 => some true | _ => none

def Source.ofCode : Nat → Option Source
  | 0 => some .main | 1 => some .spare | _ => none

def BankName.ofCode : Nat → Option BankName
  | 0 => some .a | 1 => some .b | _ => none

def Mode.ofCode : Nat → Option Mode
  | 0 => some .discrete | 1 => some .mx4 | _ => none

def Row.ofCode : Nat → Option Row
  | 0 => some .l | 1 => some .r | 2 => some .c | 3 => some .s | _ => none

def Policy.ofCode : Nat → Option Policy
  | 0 => some .stopAtFirst | 1 => some .testAll | _ => none

def GoTarget.ofCode : Nat → Option GoTarget
  | 0 => some .goOff | 1 => some .goListen | 2 => some .goProve | 3 => some .goLive | 4 => some .goPark
  | 5 => some .goStop | _ => none

def TimerUnit.ofCode : Nat → Option TimerUnit
  | 0 => some .sample | 1 => some .frame | 2 => some .second | _ => none

def LevelKind.ofCode : Nat → Option LevelKind
  | 0 => some .silence | 1 => some .over | 2 => some .clip | 3 => some .loss | _ => none

def AlarmKind.ofCode : Nat → Option AlarmKind
  | 0 => some .silence | 1 => some .over | 2 => some .clip | 3 => some .loss | 4 => some .rack | _ => none

/-- An output map entry: PROGRAM(c) is c, DECODE(L), (C), (R), (S) are 16 to 19, NONE is FFFFFFFh. -/
def OutSrc.ofCode (v : Nat) : Option OutSrc :=
  if h : v < 16 then some (.program ⟨v, h⟩)
  else if v = 16 then some (.decode .l) else if v = 17 then some (.decode .c)
  else if v = 18 then some (.decode .r) else if v = 19 then some (.decode .s)
  else if isNone v then some .none else none

/-- A condition named by channel and kind: 0 to 15 with SILENCE to LOSS, ROOM (16) with RACK (R135, R215). -/
def CondId.ofCodes (chan kind : Nat) : Option CondId :=
  if h : chan < 16 then (LevelKind.ofCode kind).map (.level ⟨chan, h⟩)
  else if chan = 16 ∧ kind = 4 then some .rack else none

/-- All entries of a list of optional values, or nothing when one is missing. -/
def allSome {α : Type} : List (Option α) → Option (List α)
  | [] => some []
  | none :: _ => none
  | some a :: rest => (allSome rest).map (a :: ·)

/-- `n` values from the words of a body from word `i` on, each by `f`; nothing when one of them is refused. -/
def decodeAll {α : Type} (f : Nat → Option α) (body : List Payload) (i n : Nat) : Option (List α) :=
  allSome ((List.range n).map fun k => f (arg body (i + k)))

/-- A list read as a vector, with a default for what it does not reach. -/
def vecOf {α : Type} (n : Nat) (d : α) (l : List α) : Vector α n := Vector.ofFn fun i => l.getD i.val d

/-! ### Request kinds (Table 10-1, Table 11-1) -/

/-- The forty request kinds, in the order of their codes 1 to 40. -/
inductive Kind where
  | readPart | readRoom | readCounts | readMeters | readAlarms | readCues | readBank | readProfile | readContacts
  | go | setRoom | setGuard | setSourceMap | selectSource | setFormatEntry | selectFormat | clearProfile
  | loadProfileRow | setProfileParams | loadFaderLaw | setGain | setMute | loadSections | setTrims | clearBank
  | copyBank | selectBank | setAlarmEntry | ackAlarm | maskAlarms | cueDraftClear | cueDraftAppend | cueCommit
  | cueGo | cueRewind | timerStart | timerStop | setContactOwner | setContact | engineRestart
  deriving DecidableEq, Repr

/-- The kinds in the order of their codes (Table 11-1). -/
def Kind.all : List Kind :=
  [.readPart, .readRoom, .readCounts, .readMeters, .readAlarms, .readCues, .readBank, .readProfile, .readContacts,
   .go, .setRoom, .setGuard, .setSourceMap, .selectSource, .setFormatEntry, .selectFormat, .clearProfile,
   .loadProfileRow, .setProfileParams, .loadFaderLaw, .setGain, .setMute, .loadSections, .setTrims, .clearBank,
   .copyBank, .selectBank, .setAlarmEntry, .ackAlarm, .maskAlarms, .cueDraftClear, .cueDraftAppend, .cueCommit,
   .cueGo, .cueRewind, .timerStart, .timerStop, .setContactOwner, .setContact, .engineRestart]

/-- The kind a code names; 0 and 41 to 63 name none (R215). -/
def Kind.ofCode (code : Nat) : Option Kind := if code = 0 then none else Kind.all[code - 1]?

/-- The code of a kind (Table 11-1). -/
def Kind.code : Kind → BitVec 6
  | .readPart => 1 | .readRoom => 2 | .readCounts => 3 | .readMeters => 4 | .readAlarms => 5 | .readCues => 6
  | .readBank => 7 | .readProfile => 8 | .readContacts => 9 | .go => 10 | .setRoom => 11 | .setGuard => 12
  | .setSourceMap => 13 | .selectSource => 14 | .setFormatEntry => 15 | .selectFormat => 16 | .clearProfile => 17
  | .loadProfileRow => 18 | .setProfileParams => 19 | .loadFaderLaw => 20 | .setGain => 21 | .setMute => 22
  | .loadSections => 23 | .setTrims => 24 | .clearBank => 25 | .copyBank => 26 | .selectBank => 27
  | .setAlarmEntry => 28 | .ackAlarm => 29 | .maskAlarms => 30 | .cueDraftClear => 31 | .cueDraftAppend => 32
  | .cueCommit => 33 | .cueGo => 34 | .cueRewind => 35 | .timerStart => 36 | .timerStop => 37
  | .setContactOwner => 38 | .setContact => 39 | .engineRestart => 40

/-- Room forms (R194, R196). -/
inductive RoomForm where
  | none | room | roomOrNone
  deriving DecidableEq, Repr

/-- Room form of a kind (Table 10-1). -/
def Kind.form : Kind → RoomForm
  | .readPart | .readCounts | .readProfile | .readContacts | .clearProfile | .loadProfileRow | .setProfileParams
  | .loadFaderLaw | .setContactOwner | .setContact | .engineRestart => .none
  | .readAlarms => .roomOrNone
  | .readRoom | .readMeters | .readCues | .readBank | .go | .setRoom | .setGuard | .setSourceMap | .selectSource
  | .setFormatEntry | .selectFormat | .setGain | .setMute | .loadSections | .setTrims | .clearBank | .copyBank
  | .selectBank | .setAlarmEntry | .ackAlarm | .maskAlarms | .cueDraftClear | .cueDraftAppend | .cueCommit
  | .cueGo | .cueRewind | .timerStart | .timerStop => .room

/-- Level classes (Table 10-2). -/
inductive LevelClass where
  | any | roomWrite | partTable | restart | acknowledge | cueGate | contact | guard
  deriving DecidableEq, Repr

/-- Level class of a kind (Table 10-1). -/
def Kind.levelClass : Kind → LevelClass
  | .readPart | .readRoom | .readCounts | .readMeters | .readAlarms | .readCues | .readBank | .readProfile
  | .readContacts => .any
  | .setGuard => .guard
  | .clearProfile | .loadProfileRow | .setProfileParams | .loadFaderLaw | .setContactOwner => .partTable
  | .ackAlarm => .acknowledge
  | .cueGo => .cueGate
  | .setContact => .contact
  | .engineRestart => .restart
  | .go | .setRoom | .setSourceMap | .selectSource | .setFormatEntry | .selectFormat | .setGain | .setMute
  | .loadSections | .setTrims | .clearBank | .copyBank | .selectBank | .setAlarmEntry | .maskAlarms
  | .cueDraftClear | .cueDraftAppend | .cueCommit | .cueRewind | .timerStart | .timerStop => .roomWrite

/-- A kind is a read or a write (Table 10-1). -/
def Kind.isRead (k : Kind) : Bool := k.levelClass == .any

/-! ### Packed cue entries (R216) -/

/-- Bits `hi:lo` of a payload. -/
def bitsOf (p : Payload) (hi lo : Nat) : Nat := (p.toNat >>> lo) % 2 ^ (hi - lo + 1)

/-- Words of an entry after its header: the trigger word and two words an action, by the action count in bits 22:20
read as written (R216). -/
def entryTail (header : Payload) : Nat := 1 + 2 * bitsOf header 22 20

/-- The walk of step 1: the words after the entry count, cut into `n` entries; nothing when the body ends inside an
entry or words remain (R216). -/
def splitEntries : Nat → List Payload → Option (List (List Payload))
  | 0, [] => some []
  | 0, _ :: _ => none
  | _ + 1, [] => none
  | n + 1, header :: rest =>
    if rest.length < entryTail header then none
    else (splitEntries n (rest.drop (entryTail header))).map ((header :: rest.take (entryTail header)) :: ·)

/-- The entries of a CUE_DRAFT_APPEND body (R216); nothing when the walk does not agree or the count is 0. -/
def entriesOf : List Payload → Option (List (List Payload))
  | [] => none
  | count :: words => if count.toNat = 0 then none else splitEntries count.toNat words

/-- Channel of an ALARM trigger: 0 to 15, 16 ROOM, 17 ANY; the pairing with the kind is that of R146. -/
def TrigChan.ofCode (kind : AlarmKind) (v : Nat) : Option TrigChan :=
  if h : v < 16 then (if kind = .rack then none else some (.ch ⟨v, h⟩))
  else if v = 16 then (if kind = .rack then some .room else none)
  else if v = 17 then some .any else none

/-- The trigger word (R216). -/
def Trigger.ofWord (p : Payload) : Option Trigger :=
  match bitsOf p 27 26 with
  | 0 => some (.at (bitsOf p 23 0))
  | 1 => (AlarmKind.ofCode (bitsOf p 2 0)).bind fun k => (TrigChan.ofCode k (bitsOf p 8 4)).map (.alarm k)
  | 2 => (below 16 (bitsOf p 4 0)).map fun i => .contact i (if bitsOf p 8 8 = 0 then .rise else .fall)
  | _ => some .manual

/-- The two words of an action (R216). -/
def Action.ofWords (a b : Payload) : Option Action :=
  match bitsOf a 27 24 with
  | 1 => (below 4 (bitsOf a 1 0)).map .setFormat
  | 2 => (Source.ofCode (bitsOf a 0 0)).map .setSource
  | 3 => (BankName.ofCode (bitsOf a 0 0)).map .selectBank
  | 4 => some (.fade (BitVec.ofNat 7 (bitsOf a 6 0)) (BitVec.ofNat 16 (bitsOf b 15 0)))
  | 5 => some (.mute (bitsOf a 0 0 == 1))
  | 6 => some (.mask (BitVec.ofNat 4 (bitsOf a 3 0)) (BitVec.ofNat 16 (bitsOf b 15 0)))
  | 7 => (below 24 (bitsOf a 4 0)).map fun o => .contact o (bitsOf b 0 0 == 1)
  | 8 => (GoTarget.ofCode (bitsOf a 2 0)).map .go
  | 9 =>
    (TimerUnit.ofCode (bitsOf a 5 4)).bind fun u =>
      if 1 ≤ bitsOf a 20 7 ∧ bitsOf a 20 7 ≤ 9999 then
        some (.timerStart (BitVec.ofNat 3 (bitsOf a 2 0)) u (BitVec.ofNat 16 (bitsOf b 15 0)) (bitsOf a 6 6 == 1)
          (bitsOf a 20 7))
      else none
  | 10 => some (.timerStop (BitVec.ofNat 3 (bitsOf a 2 0)))
  | _ => none

/-- The actions of an entry, two words each. -/
def actionsOf : List Payload → Option (List Action)
  | [] => some []
  | [_] => none
  | a :: b :: rest => (Action.ofWords a b).bind fun x => (actionsOf rest).map (x :: ·)

/-- A cue entry from its words; nothing when R146 refuses it with BAD_FIELD. -/
def Cue.ofWords : List Payload → Option Cue
  | header :: trig :: acts =>
    if 1 ≤ bitsOf header 13 0 ∧ bitsOf header 13 0 ≤ 9999 ∧ 1 ≤ bitsOf header 22 20 ∧ bitsOf header 22 20 ≤ 4 then
      (below 4 (bitsOf header 17 16)).bind fun gate =>
        (Trigger.ofWord trig).bind fun t =>
          (actionsOf acts).map fun as => ⟨bitsOf header 13 0, t, gate, as⟩
    else none
  | _ => none

/-! ### Required body lengths (R196) -/

/-- The body has the length its kind requires (R196, R215, R216). -/
def Kind.lengthOk (k : Kind) (body : List Payload) : Bool :=
  match k with
  | .readPart | .readRoom | .readMeters | .readContacts | .cueDraftClear | .cueCommit | .cueRewind | .engineRestart =>
    body.length == 0
  | .go | .setGuard | .selectSource | .selectFormat | .clearProfile | .setMute | .clearBank | .copyBank | .selectBank
  | .cueGo | .timerStop => body.length == 1
  | .readCounts | .readAlarms | .readBank | .readProfile | .setGain | .ackAlarm | .maskAlarms | .setContact =>
    body.length == 2
  | .readCues | .setContactOwner => body.length == 3
  | .setRoom | .setProfileParams => body.length == 4
  | .timerStart => body.length == 5
  | .setAlarmEntry => body.length == 7
  | .setTrims => body.length == 17
  | .setSourceMap => body.length == 18
  | .setFormatEntry => body.length == 19
  | .loadProfileRow => body.length == 68
  | .loadFaderLaw => decide (2 ≤ body.length) && body.length == 2 + arg body 1
  | .loadSections => decide (4 ≤ body.length) && body.length == 4 + 5 * arg body 3
  | .cueDraftAppend => (entriesOf body).isSome

end Sys2Proof.Machine
end

