-- ==== Sys2Proof/Machine/Packing.lean ====
section
/-! DEFINITION. Replies and notices on the trunk: the codes of enumerations, the bit stream of R217, the snapshot, the
fields of each notice kind, the headers, and the words of a cue entry as READ_CUES sends them (R216). -/

namespace Sys2Proof.Machine

/-! ### Codes (R215, R216, R217, Table 11-2, Table 11-3) -/

def RoomState.code : RoomState → Nat
  | .off => 0 | .listen => 1 | .ready => 2 | .prove => 3 | .live => 4 | .parked => 5 | .halted => 6

def Phase.code : Phase → Nat
  | .none => 0 | .settling => 1 | .debouncing => 2 | .proving => 3 | .rampingIn => 4 | .rampingOutPark => 5
  | .rampingOutOff => 6 | .supplyRamp => 7

def TcState.code : TcState → Nat
  | .absent => 0 | .running => 1 | .stopped => 2 | .lost => 3

def Source.code : Source → Nat | .main => 0 | .spare => 1
def BankName.code : BankName → Nat | .a => 0 | .b => 1
def Policy.code : Policy → Nat | .stopAtFirst => 0 | .testAll => 1
def ProofResult.code : ProofResult → Nat | .untested => 0 | .passed => 1 | .failed => 2
/-- The halt cause, read as an enumeration in the order in which R2 names its values, and not as a field with a NONE bit, which R217
would code the other way round. DEDUCED, assumption 9. -/
def HaltCause.code : HaltCause → Nat | .none => 0 | .rackLost => 1
def DipStage.code : DipStage → Nat | .idle => 0 | .descent => 1 | .ascent => 2
def Mode.code : Mode → Nat | .discrete => 0 | .mx4 => 1
/-- The tag of a slot, in the order in which R87 names the four: R217 refers to a defining table, and Table R89 has no EMPTY.
DEDUCED, assumption 9. -/
def Tag.code : Tag → Nat | .empty => 0 | .unity => 1 | .rejected => 2 | .active => 3
def CondPhase.code : CondPhase → Nat | .quiet => 0 | .pending => 1 | .raised => 2 | .heldAck => 3
def TimerUnit.code : TimerUnit → Nat | .sample => 0 | .frame => 1 | .second => 2
def GoTarget.code : GoTarget → Nat
  | .goOff => 0 | .goListen => 1 | .goProve => 2 | .goLive => 3 | .goPark => 4 | .goStop => 5
def LevelKind.code : LevelKind → Nat | .silence => 0 | .over => 1 | .clip => 2 | .loss => 3
def AlarmKind.code : AlarmKind → Nat | .silence => 0 | .over => 1 | .clip => 2 | .loss => 3 | .rack => 4
def DecOut.code : DecOut → Nat | .l => 16 | .c => 17 | .r => 18 | .s => 19
def Edge.code : Edge → Nat | .rise => 0 | .fall => 1

/-- The alarm kind of a level kind. -/
def LevelKind.kind : LevelKind → AlarmKind
  | .silence => .silence | .over => .over | .clip => .clip | .loss => .loss

/-- The kind of a condition. -/
def CondId.kind : CondId → AlarmKind
  | .level _ k => k.kind
  | .rack => .rack

/-- Channel code of a condition, with ROOM as 16 (R217). -/
def CondId.chanCode : CondId → Nat
  | .level c _ => c.val
  | .rack => 16

def TrigChan.code : TrigChan → Nat
  | .ch c => c.val | .room => 16 | .any => 17

/-- Result codes (Table 11-2), with NOT_OWNER as 16. -/
def Result.code : Result → Nat
  | .ok => 0 | .malformed => 1 | .badRoom => 2 | .notReady => 3 | .denied => 4 | .supplyLow => 5 | .badField => 6
  | .wrongState => 8 | .seqBusy => 9 | .inService => 10 | .bankBusy => 11 | .overBudget => 12 | .storeFull => 13
  | .order => 14 | .noSuchCue => 15 | .notOwner => 16

/-! ### The bit stream (R217) -/

/-- A field of a packed body: a value in so many bits, or a whole word that starts on a word boundary. -/
inductive Fld where
  | bits (width value : Nat)
  | word (value : Nat)
  deriving DecidableEq, Repr

def Fld.bool (yes : Bool) : Fld := .bits 1 (if yes then 1 else 0)

/-- A field that may be NONE: the NONE bit, then the value's bits, 0 when NONE (R217). -/
def Fld.opt (width : Nat) (v : Option Nat) : List Fld :=
  [.bits 1 (if v.isNone then 1 else 0), .bits width (v.getD 0)]

/-- A signed value in `width` bits, two's complement. -/
def Fld.signed (width : Nat) (x : Int) : Fld := .bits width (BitVec.ofInt width x).toNat

/-- A coefficient in a reply: a word of its own, bits 27:24 at 0 (R217). -/
def Fld.coef (x : Int) : Fld := .word (BitVec.ofInt 24 x).toNat

/-- The next word boundary at or after bit `n`. -/
def wordUp (n : Nat) : Nat := (n + 27) / 28 * 28

/-- One field joins the stream: its bits so far as a number, and its length. -/
def packField (acc : Nat × Nat) : Fld → Nat × Nat
  | .bits w v => (acc.1 + (v % 2 ^ w) <<< acc.2, acc.2 + w)
  | .word v => (acc.1 + (v % 2 ^ 28) <<< wordUp acc.2, wordUp acc.2 + 28)

/-- The payloads of a packed body: bit 0 of the stream at bit 0 of the first word (R217). -/
def pack (fs : List Fld) : List Payload :=
  let acc := fs.foldl packField (0, 0)
  (List.range ((acc.2 + 27) / 28)).map fun i => BitVec.ofNat 28 (acc.1 >>> (28 * i))

/-! ### Cue entries in READ_CUES (R216) -/

def Trigger.word : Trigger → Nat
  | .at f => f
  | .alarm k c => 1 <<< 26 + c.code <<< 4 + k.code
  | .contact i e => 2 <<< 26 + e.code <<< 8 + i.val
  | .manual => 3 <<< 26

def bit (yes : Bool) : Nat := if yes then 1 else 0

/-- The two words of an action. -/
def Action.words : Action → List Nat
  | .setFormat i => [1 <<< 24 + i.val, 0]
  | .setSource s => [2 <<< 24 + s.code, 0]
  | .selectBank b => [3 <<< 24 + b.code, 0]
  | .fade step ms => [4 <<< 24 + step.toNat, ms.toNat]
  | .mute y => [5 <<< 24 + bit y, 0]
  | .mask k n => [6 <<< 24 + k.toNat, n.toNat]
  | .contact o on => [7 <<< 24 + o.val, bit on]
  | .go t => [8 <<< 24 + t.code, 0]
  | .timerStart t u n rep target =>
    [9 <<< 24 + target <<< 7 + bit rep <<< 6 + u.code <<< 4 + t.toNat, n.toNat]
  | .timerStop t => [10 <<< 24 + t.toNat, 0]

/-- The words of a cue entry, every ignored bit at 0. -/
def Cue.words (c : Cue) : List Nat :=
  (c.actions.length <<< 20 + c.gate.val <<< 16 + c.number) :: c.trigger.word :: c.actions.flatMap Action.words

/-! ### Notices (R204, R217) -/

/-- The three snapshot words (R217). -/
def Snapshot.words (s : Snapshot) : List Payload :=
  [BitVec.ofNat 28 (s.state.code + s.phase.code <<< 3 + s.format.val <<< 7 + s.source.code <<< 9
      + s.bank.code <<< 10 + s.tc.code <<< 11),
   BitVec.ofNat 28 s.g,
   BitVec.ofNat 28 (match s.last with | some f => f | none => 1 <<< 24)]

def condFields (c : CondId) : List Fld := [.bits 5 c.chanCode, .bits 3 c.kind.code]

def recordFields (rec : Vector ProofEntry 16) : List Fld :=
  rec.toList.flatMap fun e => [.bits 2 e.result.code, .bits 2 e.attempts]

def Trigger.fields : Trigger → List Fld
  | .at f => [.bits 2 0, .bits 24 f]
  | .alarm k c => [.bits 2 1, .bits 3 k.code, .bits 5 c.code]
  | .contact i e => [.bits 2 2, .bits 4 i.val, .bits 1 e.code]
  | .manual => [.bits 2 3]

def Cause.fields : Cause → List Fld
  | .timecode jump f => [.bits 3 0, .bool jump, .bits 24 f]
  | .alarm c => .bits 3 1 :: condFields c
  | .contact i e => [.bits 3 2, .bits 4 i.val, .bits 1 e.code]
  | .cueGo o => [.bits 3 3, .bits 6 o.toNat]
  | .timer t => [.bits 3 4, .bits 2 t.val]

/-- Failed actions of a firing: a list of varying length of at most four, index and reason (R162, R158). -/
def failedFields (l : List (Nat × Result)) : List Fld :=
  .bits 3 l.length :: l.flatMap fun x => [.bits 3 x.1, .bits 5 x.2.code]

/-- Notice kind codes (Table 11-3). -/
def NoticeBody.code : NoticeBody → Nat
  | .roomState _ => 1 | .rackFound => 2 | .rackGone _ => 3 | .rackWake => 4 | .proofDone _ _ => 5
  | .alarmRaised .. => 6 | .alarmCleared .. => 7 | .alarmListFull .. => 8 | .cueFired .. => 10 | .cueFailed .. => 11
  | .timerOrphan .. => 12 | .timecode .. => 13 | .bankSwapped .. => 14 | .supply _ => 15 | .contactIn .. => 16
  | .queueOverflow _ => 17 | .storeReady => 18 | .restarted => 19

/-- The fields specific to a notice kind, in the order in which its rule names them. SUPPLY carries 1 for asserted and 0 for
released (R27, R28), as the supply state of READ_PART does, which no rule says. DEDUCED, assumption 9. -/
def NoticeBody.fields : NoticeBody → List Fld
  | .roomState left => [.bits 3 left.code]
  | .rackFound => []
  | .rackGone left => [.bits 3 left.code]
  | .rackWake => []
  | .proofDone proven rec => .bool proven :: recordFields rec
  | .alarmRaised c p n count => condFields c ++ [.bits 24 p, .bits 13 n, .bool count.isSome] ++ Fld.opt 8 count
  | .alarmCleared c listed blk => condFields c ++ [.bool listed, .bits 32 blk.toNat]
  | .alarmListFull c n => condFields c ++ [.bits 16 n.toNat]
  | .cueFired n t c => .bits 14 n :: (t.fields ++ c.fields)
  | .cueFailed n c failed => .bits 14 n :: (c.fields ++ failedFields failed)
  | .timerOrphan t target => [.bits 2 t.val, .bits 14 target]
  | .timecode before after lastBefore lastAfter jump =>
    [.bits 2 before.code, .bits 2 after.code] ++ Fld.opt 24 lastBefore ++ Fld.opt 24 lastAfter ++ [.bool jump]
  | .bankSwapped left entered => [.bits 1 left.code, .bits 1 entered.code]
  | .supply asserted => [.bool asserted]
  | .contactIn i e owner n => [.bits 4 i.val, .bits 1 e.code] ++ Fld.opt 4 (owner.map (·.val)) ++ [.bits 16 n.toNat]
  | .queueOverflow q =>
    [.bits 6 q.originator.toNat, .bits 2 q.level.toNat, .bits 6 q.kind.toNat, .bits 4 q.room.toNat,
     .bits 16 q.tag.toNat]
  | .storeReady => []
  | .restarted => []

/-! ### Outbound messages (R217) -/

/-- The START payload: addressee, declared length, class. -/
def startPayload (addressee length cls : Nat) : Payload := BitVec.ofNat 28 (addressee + length <<< 8 + cls <<< 16)

/-- The words of a reply: START, header, body. -/
def Reply.message (m : Reply) : List OutWord :=
  (true, startPayload m.originator.toNat m.body.length 0)
    :: (false, BitVec.ofNat 28 (m.kind.toNat + m.result.code <<< 6 + m.tag.toNat <<< 11))
    :: m.body.map fun w => (false, w)

/-- The words a notice carries after its header: the snapshot, when it names a room, and its fields. -/
def Notice.tail (n : Notice) : List Payload :=
  (match n.room with | some (_, s) => s.words | none => []) ++ pack n.body.fields

/-- The words of a notice: START, header, snapshot, fields. -/
def Notice.message (n : Notice) : List OutWord :=
  (true, startPayload 0 n.tail.length 1)
    :: (false, BitVec.ofNat 28 (n.body.code + (match n.room with | some (r, _) => r.val | none => 15) <<< 5
        + n.dropped <<< 9))
    :: n.tail.map fun w => (false, w)

end Sys2Proof.Machine
end

