-- ==== Sys2Proof/Machine/Ops.lean ====
section
/-! DEFINITION. The shared operations: reading and changing one room, raising notices (R204, R205), moving a room between
states (R5, R7, R23, R68, R119), the effects of a format, source and bank change (R41, R74, R101), the teardowns
(R137, R138, R174) and the placing of the cursor (R148). -/

namespace Sys2Proof.Machine

/-! ### One room of the part -/

/-- The record of room `r`. -/
def State.room (s : State) (r : Room) : RoomRec := s.rooms[r]

/-- Change the record of room `r`, and nothing else. -/
def State.modRoom (s : State) (r : Room) (f : RoomRec → RoomRec) : State :=
  { s with rooms := s.rooms.set r.val (f s.rooms[r]) r.isLt }

/-- Change every room's record by the same rule. -/
def State.mapRooms (s : State) (f : RoomRec → RoomRec) : State :=
  { s with rooms := Vector.ofFn fun r => f s.rooms[r] }

/-- The order in which a command takes the rooms: those its order names, then the others ascending. -/
def visit (order : List Room) : List Room :=
  order.dedup ++ (List.finRange 12).filter fun r => decide (r ∉ order)

/-- Take the rooms one after another in the order given. DESIGN CHOICE, assumption 5. -/
def forRooms (order : List Room) (f : Room → State → State) (s : State) : State :=
  (visit order).foldl (fun s r => f r s) s

/-! ### Notices (R204, R205) -/

/-- The snapshot of a room as it stands (R204). -/
def RoomRec.snapshot (rm : RoomRec) : Snapshot :=
  ⟨rm.path.state, rm.path.phase, rm.activeFormat, rm.activeSource, rm.bankInService, rm.gain.g, rm.tc.state, rm.tc.last⟩

/-- A notice joins the notice queue, or is discarded and counted when the queue is full (R205). -/
def Mgmt.raise (m : Mgmt) (room : Option (Room × Snapshot)) (b : NoticeBody) : Mgmt :=
  if m.notices.length < Config.noticeMax then
    { m with notices := m.notices ++ [⟨room, b, m.dropCount⟩], dropCount := 0 }
  else
    { m with dropCount := min Config.dropMax (m.dropCount + 1), discardTotal := m.discardTotal + 1 }

/-- A notice that names room `r`, with the room's snapshot as it stands (R204). -/
def State.notify (s : State) (r : Room) (b : NoticeBody) : State :=
  { s with mgmt := s.mgmt.raise (some (r, (s.room r).snapshot)) b }

/-- A notice that names no room (R204). -/
def State.notifyPart (s : State) (b : NoticeBody) : State :=
  { s with mgmt := s.mgmt.raise none b }

/-! ### Cue lists and the cursor (R148, R150) -/

/-- The frame of an AT cue. -/
def Cue.frame? (c : Cue) : Option Nat :=
  match c.trigger with
  | .at f => some f
  | _ => none

/-- Position of the first AT cue whose frame satisfies `p`; the length of the list when there is none. -/
def firstAt (p : Nat → Bool) : List Cue → Nat
  | [] => 0
  | c :: cs =>
    match c.frame? with
    | some f => if p f then 0 else firstAt p cs + 1
    | none => firstAt p cs + 1

/-- The base: the position of the first AT cue, or the end (R150). -/
def baseOf (l : List Cue) : Nat := firstAt (fun _ => true) l

/-- The placement of R148. -/
def RoomRec.placement (rm : RoomRec) : Nat :=
  match rm.tc.last with
  | none => baseOf rm.list
  | some last => if rm.path.state = .off then baseOf rm.list else firstAt (fun f => decide (last < f)) rm.list

/-- Place the cursor by R148. -/
def RoomRec.placeCursor (rm : RoomRec) : RoomRec := { rm with cursor := rm.placement }

/-- Put the cursor at base (R155, R171, R174). -/
def RoomRec.cursorToBase (rm : RoomRec) : RoomRec := { rm with cursor := baseOf rm.list }

/-- A timer stops and keeps its unit, count, mode and target (R169, R174). -/
def Timer.stop (t : Timer) : Timer := { t with running := false, remaining := 0, expiring := false }

/-- The Cue Engine's teardown of a room that enters OFF (R174). -/
def RoomRec.cueTeardown (rm : RoomRec) : RoomRec :=
  { rm with timers := Vector.ofFn fun i => rm.timers[i].stop, cursor := baseOf rm.list }

/-! ### Conditions of a room (R102, R137, R138) -/

/-- Every condition of a room QUIET and its mask ended (R138, R139). -/
def RoomRec.quietAll (rm : RoomRec) : RoomRec :=
  { rm with conds := Vector.replicate 16 .quiet, rackCond := .quiet, mask := .none }

/-- The channel conditions QUIET and the mask ended; the RACK condition stays (R137). -/
def RoomRec.quietChannels (rm : RoomRec) : RoomRec :=
  { rm with conds := Vector.replicate 16 .quiet, mask := .none }

/-- A condition that is not RAISED or HELD_ACK returns to QUIET (R102, R122). -/
def Cond.requiet (c : Cond) : Cond :=
  match c.phase with
  | .raised | .heldAck => c
  | .quiet | .pending => .quiet

/-- The swap's effect on the conditions: OVER and CLIP of every channel (R102). -/
def RoomRec.requietSwap (rm : RoomRec) : RoomRec :=
  { rm with conds := Vector.ofFn fun k =>
      { rm.conds[k] with onOver := rm.conds[k].onOver.requiet, onClip := rm.conds[k].onClip.requiet } }

/-! ### Formats, sources and banks -/

/-- The active format entry. -/
def RoomRec.entry (rm : RoomRec) : FormatEntry := rm.formats[rm.activeFormat]

/-- A room's source map of that name. -/
def RoomRec.mapOf (rm : RoomRec) : Source → SourceMap
  | .main => rm.main
  | .spare => rm.spare

/-- The active source map (R38). -/
def RoomRec.activeMap (rm : RoomRec) : SourceMap := rm.mapOf rm.activeSource

/-- A room's bank of that name. -/
def RoomRec.bank (rm : RoomRec) : BankName → Bank
  | .a => rm.bankA
  | .b => rm.bankB

/-- Replace a room's bank of that name. -/
def RoomRec.setBank (rm : RoomRec) (n : BankName) (bk : Bank) : RoomRec :=
  match n with
  | .a => { rm with bankA := bk }
  | .b => { rm with bankB := bk }

/-- The other bank. -/
def BankName.other : BankName → BankName
  | .a => .b
  | .b => .a

/-- What chains that came ahead of a zeroing of the history write to it is discarded (R58). -/
def Early.dropHistory (e : Early) : Early := { e with histStands := false }

/-- What chains that came ahead of a setting of the envelopes and indices to 0 write to them is discarded (R81). -/
def Early.dropDecode (e : Early) : Early := { e with decodeStands := false }

/-- The decode computation starts from the values that a dip's bottom of its period has set to 0, whatever the order (R74). -/
def Early.fromZero (e : Early) : Early := { e with decode := .zero, decodeStands := true }

/-- Every history value of a room becomes 0 (R58). -/
def RoomRec.zeroHistory (rm : RoomRec) : RoomRec :=
  { rm with histA := .zero, histB := .zero, ahead := rm.ahead.map Early.dropHistory }

/-- The envelopes and indices of a room become 0 (R81). -/
def RoomRec.zeroDecode (rm : RoomRec) : RoomRec := { rm with decode := .zero, ahead := rm.ahead.map Early.dropDecode }

/-- The timecode record at a switch of the timecode lane (R47). -/
def Timecode.switch (tc : Timecode) (old new : Option Lane) : Timecode :=
  if old = new then tc
  else
    match old, new with
    | _, none => { tc with state := .absent, still := 0, absence := 0 }
    | none, some _ => { tc with state := .lost, still := 0, absence := Config.timecodeLoss }
    | some _, some _ => { tc with absence := if tc.state = .lost then Config.timecodeLoss else 0 }

/-- A change to entry `i` is an entry into MX4 (R74). -/
def RoomRec.entersMx4 (rm : RoomRec) (i : Fin 4) : Bool :=
  decide (rm.entry.mode = .discrete) && decide (rm.formats[i].mode = .mx4)

/-- A format change is applied (R74): an entry into MX4 zeroes the envelopes and indices. -/
def RoomRec.applyFormat (rm : RoomRec) (i : Fin 4) : RoomRec :=
  if rm.entersMx4 i then { rm with activeFormat := i }.zeroDecode else { rm with activeFormat := i }

/-- A source change is applied (R41), with the switch of the timecode lane (R47). -/
def RoomRec.applySource (rm : RoomRec) (m : Source) : RoomRec :=
  { rm with activeSource := m, tc := rm.tc.switch rm.activeMap.tc (rm.mapOf m).tc }

/-- The swap (R101, R102). -/
def RoomRec.applyBank (rm : RoomRec) (n : BankName) : RoomRec :=
  ({ rm with bankInService := n }).zeroHistory.requietSwap

/-! ### The dip's slots (R65, R67, R68) -/

/-- The BANK_SWAPPED notice of the swap that a filled bank slot makes when it is applied (R103). -/
def RoomRec.swapBody (rm : RoomRec) : Option NoticeBody :=
  rm.dip.bankSlot.map fun n => .bankSwapped rm.bankInService n

/-- The three slots are empty (R67). -/
def RoomRec.emptySlots (rm : RoomRec) : RoomRec :=
  { rm with dip := { rm.dip with fmtSlot := none, srcSlot := none, bankSlot := none } }

/-- Every filled slot is applied, all in one event, and the slots are then empty (R67). -/
def RoomRec.applySlots (rm : RoomRec) : RoomRec :=
  let rm1 := rm.dip.fmtSlot.elim rm rm.applyFormat
  let rm2 := rm.dip.srcSlot.elim rm1 rm1.applySource
  (rm.dip.bankSlot.elim rm2 rm2.applyBank).emptySlots

/-- A room leaving LIVE with a dip in flight ends it (R68). -/
def RoomRec.endDip (rm : RoomRec) : RoomRec :=
  if rm.dip.stage = .idle then rm else { rm.applySlots with dip := .reset }

/-- The BANK_SWAPPED notice of a room that leaves LIVE with a bank change waiting (R68, R103). -/
def RoomRec.endDipSwap (rm : RoomRec) : Option NoticeBody :=
  if rm.dip.stage = .idle then none else rm.swapBody

/-! ### Moving a room between states -/

/-- LIVE or PARKED: the states in which the chain runs (R53) and which are evaluated (R119). -/
def RoomState.runs : RoomState → Bool
  | .live | .parked => true
  | _ => false

/-- Nothing of a sequence is left: counts, position and ramp (R3). -/
def Path.noSequence (p : Path) : Path :=
  { p with seqCount := 0, proofPos := none, nextAttempt := none, ramp := none, debounceHeld := false }

/-- A room that enters LIVE or PARKED from another state is marked for the block in progress (R119). -/
def RoomRec.markEntry (rm : RoomRec) (left : RoomState) : RoomRec :=
  if rm.path.state.runs && !left.runs then { rm with path := { rm.path with enteredInBlock := true } } else rm

/-- One event of a room's path: a dip in flight ends when the room leaves LIVE (R68), the room changes by `f`, a change
of state raises one ROOM_STATE notice and the event's own notices follow it at once (R7), and the swap of an ended dip
is announced after them (R103); every snapshot shows all the changes (R104). -/
def State.transit (s : State) (r : Room) (own : List NoticeBody) (f : RoomRec → RoomRec) : State :=
  let old := s.room r
  let leaves := old.path.state = .live ∧ (f old).path.state ≠ .live
  let new := (f (if leaves then old.endDip else old)).markEntry old.path.state
  let s1 := s.modRoom r fun _ => new
  let s2 := if old.path.state ≠ new.path.state then s1.notify r (.roomState old.path.state) else s1
  let s3 := own.foldl (fun t b => t.notify r b) s2
  match (if leaves then old.endDipSwap else none) with
  | some b => s3.notify r b
  | none => s3

/-- The room's record after entering OFF (R9, R23, R138, R174). -/
def RoomRec.toOff (rm : RoomRec) : RoomRec :=
  ({ rm with path := { rm.path.noSequence with
      state := .off, phase := .none, p := 0, proven := false, halt := .none, rackAbsence := 0 } }).quietAll.cueTeardown

/-- The room enters OFF: its record, and its entries leave the alarm list (R23, R138, R174). -/
def State.enterOff (s : State) (r : Room) : State :=
  let s1 := s.transit r [] RoomRec.toOff
  { s1 with alarms := s1.alarms.filter fun e => e.room ≠ r }

/-- The room's record after a rack loss in LIVE or PARKED (R9, R12, R137). -/
def RoomRec.toHalted (rm : RoomRec) : RoomRec :=
  ({ rm with path := { rm.path.noSequence with
      state := .halted, phase := .none, p := 0, proven := false, halt := .rackLost, rackAbsence := 0 } }).quietChannels

/-- The entries of a halted room's channel conditions become CLEARED (R137). -/
def AlarmEntry.clearChannel (r : Room) (e : AlarmEntry) : AlarmEntry :=
  if e.room = r ∧ e.cond ≠ .rack then { e with active := false } else e

/-- The room enters HALTED (R12, R137). -/
def State.enterHalted (s : State) (r : Room) : State :=
  let s1 := s.transit r [] RoomRec.toHalted
  { s1 with alarms := s1.alarms.map (AlarmEntry.clearChannel r) }

/-- The room's record after a rack loss in READY or PROVE (R9, R10, R11). -/
def RoomRec.toDebouncing (rm : RoomRec) : RoomRec :=
  { rm with path := { rm.path.noSequence with
      state := .listen, phase := .debouncing, proven := false, rackAbsence := 0 } }

/-- The room's record after an accepted GO_LISTEN, with the cursor placed as it leaves OFF (R15, R154). -/
def RoomRec.toSettling (rm : RoomRec) : RoomRec :=
  let new := { rm with path := { rm.path.noSequence with
      state := .listen, phase := .settling, halt := .none, rackAbsence := 0 } }
  if rm.path.state = .off then new.placeCursor else new

/-- The room's record in a state whose phase is none. -/
def RoomRec.toPlain (st : RoomState) (rm : RoomRec) : RoomRec :=
  { rm with path := { rm.path.noSequence with state := st, phase := .none } }

/-! ### The table store and the restart -/

/-- The Table Store is initialising or an engine restart is in progress (R197). -/
def State.notReady (s : State) : Bool := s.store != .ready || s.restart.isSome

/-! ### What a request's own rule answers (R195, R200) -/

/-- The outcome of step 6: the state of the part, the result and the body of the reply. -/
abbrev Answer := State × Result × List Payload

/-- Refused with an empty body: nothing changes but the reply. -/
def State.refuse (s : State) (res : Result) : Answer := (s, res, [])

/-- Refused with a body that the kind's rule gives. -/
def State.refuseWith (s : State) (res : Result) (fs : List Fld) : Answer := (s, res, pack fs)

/-- Accepted, with the body that the kind's rule gives. -/
def State.accept (s : State) (fs : List Fld) : Answer := (s, .ok, pack fs)

end Sys2Proof.Machine
end

