-- ==== Sys2Proof/Machine/Signal.lean ====
section
/-! DEFINITION. Signal arithmetic (03): scale-and-round, saturation, the channel chain, the fader law, the room gain with
its fades, and the dip machine. -/

namespace Sys2Proof.Machine

/-! ### Scale-and-round, saturation (R51, R52) -/

/-- scale(A, k): the exact sum divided by 2^k, halves toward plus infinity (R51). `/` on integers with a positive
divisor rounds toward minus infinity. -/
def scale (a : Int) (k : Nat) : Int := (a + 2 ^ (k - 1)) / 2 ^ k

/-- Saturation to the sample range (R52). -/
def saturate (x : Int) : Int := max Config.minSample (min Config.maxSample x)

/-- One clip when saturation changes the value (R52). -/
def clipOf (x : Int) : Nat := if saturate x = x then 0 else 1

/-! ### The channel chain (R53 to R57) -/

/-- Result of the section stage of one channel. -/
structure SectionOut where
  y : Int
  clips : Nat
  hist : Vector Hist 8

/-- The exact sum of a section (R55). -/
def sectionSum (c : Coefs) (h : Hist) (x : Int) : Int :=
  c.b0 * x + c.b1 * h.x1 + c.b2 * h.x2 - c.a1 * h.y1 - c.a2 * h.y2

/-- The output of a section before saturation (R55). -/
def sectionRaw (c : Coefs) (h : Hist) (x : Int) : Int := scale (sectionSum c h x) 22

/-- The history of a section after one period (R55). -/
def Hist.push (h : Hist) (x y : Int) : Hist := ⟨x, h.x1, y, h.y1⟩

/-- One slot of the section stage: a slot that is not ACTIVE is skipped (R55). -/
def sectionSlot (ch : ChanEq) (o : SectionOut) (i : Fin 8) : SectionOut :=
  if ch.slots[i].tag = .active then
    let raw := sectionRaw ch.slots[i].coefs o.hist[i] o.y
    ⟨saturate raw, o.clips + clipOf raw, o.hist.set i.val (o.hist[i].push o.y (saturate raw)) i.isLt⟩
  else o

/-- The section stage: the eight slots in order (R55). -/
def sectionStage (ch : ChanEq) (hist : Vector Hist 8) (src : Int) : SectionOut :=
  (List.finRange 8).foldl (sectionSlot ch) ⟨src, 0, hist⟩

/-- A gain stage before saturation (R56, R57). -/
def gainRaw (x : Int) (k : Nat) : Int := scale (x * k) 16

/-- Result of one channel's chain in one period: the rack lane sample, the meter tap, the clips and the new history. -/
structure ChainOut where
  w : Int
  t : Int
  clips : Nat
  hist : Vector Hist 8

/-- The chain of one output channel: sections, trim, meter tap, room gain, dip, path (R53 to R57). -/
def chain (ch : ChanEq) (hist : Vector Hist 8) (g d p : Nat) (src : Int) : ChainOut :=
  let o := sectionStage ch hist src
  let t := saturate (gainRaw o.y ch.trim)
  let u := saturate (gainRaw t g)
  ⟨gainRaw (gainRaw u d) p, t, o.clips + clipOf (gainRaw o.y ch.trim) + clipOf (gainRaw t g), o.hist⟩

/-- The history of the bank in service (R88). -/
def RoomRec.hist (rm : RoomRec) : History :=
  match rm.bankInService with
  | .a => rm.histA
  | .b => rm.histB

/-- Replace the history of the bank in service. -/
def RoomRec.setHist (rm : RoomRec) (h : History) : RoomRec :=
  match rm.bankInService with
  | .a => { rm with histA := h }
  | .b => { rm with histB := h }

/-- One period's share of a channel's meter: the running peak and the clip count (R52, R118). -/
def Meter.take (m : Meter) (t : Int) (clips : Nat) : Meter :=
  { m with peak := max m.peak t.natAbs, clips := m.clips + clips }

/-! ### Steps between two values (R25, R61, R65) -/

/-- a + trunc((b − a)·n/N), the value of a fade or ramp at its step n (R25, R61). -/
def interp (a b len n : Nat) : Nat := ((a : Int) + Int.tdiv (((b : Int) - a) * n) len).toNat

/-- The dip factor at a step of a stage (R65). -/
def dipFactor (stage : DipStage) (step : Nat) : Nat :=
  match stage with
  | .idle => Config.unity
  | .descent => Config.unity * (Config.dipSteps - step) / Config.dipSteps
  | .ascent => Config.unity * step / Config.dipSteps

/-! ### Room gain (R59 to R63) -/

/-- A fade begins from the present g; one of length 0 sets g at once (R61). -/
def Gain.begin (gn : Gain) (g1 len : Nat) : Gain :=
  if len = 0 then { gn with g := g1, fade := none } else { gn with fade := some ⟨gn.g, g1, len, 0⟩ }

/-- A fade's step in one sample period; a fade at its last step does not go beyond it (R61). -/
def Fade.advance (f : Fade) : Fade := { f with n := min f.len (f.n + 1) }

/-- The value of a fade at its step (R61). -/
def Fade.value (f : Fade) : Nat := interp f.g0 f.g1 f.len f.n

/-- A fade advances in every sample period, in every room state (R61). -/
def Gain.advance (gn : Gain) : Gain :=
  match gn.fade with
  | some f => { gn with g := f.advance.value, fade := some f.advance }
  | none => gn

/-- The fade has reached its last step (R61). -/
def Gain.fadeDue (gn : Gain) : Bool :=
  match gn.fade with
  | some f => decide (f.len ≤ f.n)
  | none => false

/-- The fade ends (R61). -/
def Gain.endFade (gn : Gain) : Gain := { gn with fade := none }

/-- The fader step clamped to 100 (R62). -/
def clampStep (v : Nat) : Fin 101 := ⟨min 100 v, by omega⟩

/-- The length of a fade in sample periods for a duration in milliseconds, clamped to 60,000 (R62). -/
def fadeLength (ms : Nat) : Nat := min 60000 ms * 48

/-- SET_GAIN and the cue action FADE (R62). -/
def Gain.set (gn : Gain) (law : Vector Nat 101) (step ms : Nat) : Gain :=
  let gn1 := { gn with step := clampStep step }
  if gn.mute then gn1 else gn1.begin law[clampStep step] (fadeLength ms)

/-- SET_MUTE and the cue action MUTE (R63). -/
def Gain.setMute (gn : Gain) (law : Vector Nat 101) (yes : Bool) : Gain :=
  if gn.mute = yes then gn
  else { gn with mute := yes }.begin (if yes then 0 else law[gn.step]) Config.muteFade

/-- SET_GAIN in a room. -/
def State.setGain (s : State) (r : Room) (step ms : Nat) : State :=
  s.modRoom r fun rm => { rm with gain := rm.gain.set s.law step ms }

/-- SET_MUTE in a room. -/
def State.setMute (s : State) (r : Room) (yes : Bool) : State :=
  s.modRoom r fun rm => { rm with gain := rm.gain.setMute s.law yes }

/-! ### The dip (R65 to R68) -/

/-- A change handed to the dip machine: one kind and one target (R66). -/
inductive DipChange where
  | format (i : Fin 4)
  | source (m : Source)
  | bank (n : BankName)
  deriving DecidableEq, Repr

/-- The target equals the active value of its kind (R66). -/
def RoomRec.isActive (rm : RoomRec) : DipChange → Bool
  | .format i => decide (rm.activeFormat = i)
  | .source m => decide (rm.activeSource = m)
  | .bank n => decide (rm.bankInService = n)

/-- The slot of the kind takes the target (R66). -/
def Dip.fill (dp : Dip) : DipChange → Dip
  | .format i => { dp with fmtSlot := some i }
  | .source m => { dp with srcSlot := some m }
  | .bank n => { dp with bankSlot := some n }

/-- The slot of the kind is emptied (R66). -/
def Dip.empty (dp : Dip) : DipChange → Dip
  | .format _ => { dp with fmtSlot := none }
  | .source _ => { dp with srcSlot := none }
  | .bank _ => { dp with bankSlot := none }

/-- A change is applied, by the effects of its kind (R41, R74, R101). -/
def RoomRec.applyChange (rm : RoomRec) : DipChange → RoomRec
  | .format i => rm.applyFormat i
  | .source m => rm.applySource m
  | .bank n => rm.applyBank n

/-- The dip machine takes a change in a room that has a dip, by its stage (R66). -/
def Dip.hand (dp : Dip) (active : Bool) (c : DipChange) : Dip :=
  match dp.stage, active with
  | .idle, true => dp
  | .idle, false => { dp.fill c with stage := .descent, step := 0 }
  | .descent, true => dp.empty c
  | .descent, false => dp.fill c
  | .ascent, true => dp.empty c
  | .ascent, false => { dp.fill c with followOn := true }

/-- A change is handed on: to the dip in LIVE (R66), applied at once in the other states, where a swap is announced
(R68, R103). -/
def State.handOn (s : State) (r : Room) (c : DipChange) : State :=
  if (s.room r).path.state = .live then
    s.modRoom r fun rm => { rm with dip := rm.dip.hand (rm.isActive c) c }
  else if (s.room r).isActive c then s
  else
    let s1 := s.modRoom r fun rm => rm.applyChange c
    match c with
    | .bank n => s1.notify r (.bankSwapped (s.room r).bankInService n)
    | _ => s1

/-- One step of the dip in a sample period (R65). -/
def Dip.advance (dp : Dip) : Dip :=
  match dp.stage with
  | .idle => dp
  | st => { dp with step := min Config.dipSteps (dp.step + 1), d := dipFactor st (min Config.dipSteps (dp.step + 1)) }

/-- The descent has reached d = 0 (R67). -/
def Dip.bottomDue (dp : Dip) : Bool := decide (dp.stage = .descent ∧ Config.dipSteps ≤ dp.step)

/-- The ascent has reached d = 65,536 (R67). -/
def Dip.ascentDue (dp : Dip) : Bool := decide (dp.stage = .ascent ∧ Config.dipSteps ≤ dp.step)

/-- A room at the bottom of a dip: every filled slot is applied and the ascent begins (R67); where that is an entry into MX4, the decode
computation of the period starts from 0 in either order (R74). -/
def RoomRec.bottom (rm : RoomRec) : RoomRec :=
  let rm1 := rm.applySlots
  { rm1 with
    dip := { rm1.dip with stage := .ascent, step := 0 }
    ahead := if rm.dip.fmtSlot.any rm.entersMx4 then rm1.ahead.map Early.fromZero else rm1.ahead }

/-- The bottom of a dip; the swap is announced (R67, R103). -/
def State.dipBottom (s : State) (r : Room) : State :=
  let swap := (s.room r).swapBody
  let s1 := s.modRoom r RoomRec.bottom
  match swap with
  | some b => s1.notify r b
  | none => s1

/-- Any of the three slots is filled (R67). -/
def Dip.filled (dp : Dip) : Bool := dp.fmtSlot.isSome || dp.srcSlot.isSome || dp.bankSlot.isSome

/-- The end of an ascent: IDLE, or a new descent when a slot is filled (R67). -/
def Dip.endAscent (dp : Dip) : Dip :=
  { dp with stage := if dp.filled then .descent else .idle, step := 0, d := Config.unity, followOn := false }

/-! ### LOAD_FADER_LAW (R59) -/

/-- LOAD_FADER_LAW: first step, count, gains. -/
def State.loadFaderLaw (s : State) (body : List Payload) : Answer :=
  let first := arg body 0
  let count := arg body 1
  if 100 < first ∨ count = 0 ∨ 64 < count ∨ 101 < first + count then s.refuse .badField
  else
    ({ s with law := Vector.ofFn fun f =>
        if first ≤ f.val ∧ f.val < first + count then min Config.maxGain (arg body (2 + (f.val - first))) else s.law[f] },
      .ok, [])

/-- SET_GAIN (R62). -/
def State.reqSetGain (s : State) (r : Room) (body : List Payload) : Answer :=
  (s.setGain r (arg body 0) (arg body 1)).accept []

/-- SET_MUTE (R63). -/
def State.reqSetMute (s : State) (r : Room) (body : List Payload) : Answer :=
  match boolOfCode (arg body 0) with
  | some yes => (s.setMute r yes).accept []
  | none => s.refuse .badField

/-- SELECT_SOURCE (R40). -/
def State.reqSelectSource (s : State) (r : Room) (body : List Payload) : Answer :=
  match Source.ofCode (arg body 0) with
  | some m => (s.handOn r (.source m)).accept []
  | none => s.refuse .badField

/-- SELECT_BANK (R100). -/
def State.reqSelectBank (s : State) (r : Room) (body : List Payload) : Answer :=
  match BankName.ofCode (arg body 0) with
  | some n => (s.handOn r (.bank n)).accept []
  | none => s.refuse .badField

end Sys2Proof.Machine
end

