-- ==== Sys2Proof/Machine/Surround.lean ====
section
/-! DEFINITION. Surround decoding (04): the MX4 computation, the steering profiles and their protection, and the format
requests. -/

namespace Sys2Proof.Machine

/-! ### Steering profiles (R75) -/

/-- READY: all four rows loaded since the last clear (R75). -/
def Profile.ready (p : Profile) : Bool := decide (p.loaded = 15#4)

/-- The state's code: EMPTY 0, PARTIAL 1, READY 2 (R75, R217). -/
def Profile.stateCode (p : Profile) : Nat := if p.loaded = 0#4 then 0 else if p.loaded = 15#4 then 2 else 1

/-- A row of a profile. -/
def Profile.row (p : Profile) : Row → Vector (Int × Int) 33
  | .l => p.rowL
  | .r => p.rowR
  | .c => p.rowC
  | .s => p.rowS

/-- Replace a row, which joins the rows loaded (R77). -/
def Profile.loadRow (p : Profile) (row : Row) (v : Vector (Int × Int) 33) : Profile :=
  match row with
  | .l => { p with rowL := v, loaded := p.loaded ||| 1#4 }
  | .r => { p with rowR := v, loaded := p.loaded ||| 2#4 }
  | .c => { p with rowC := v, loaded := p.loaded ||| 4#4 }
  | .s => { p with rowS := v, loaded := p.loaded ||| 8#4 }

/-- A cleared profile keeps its floor and shifts (R76). -/
def Profile.clear (p : Profile) : Profile :=
  { p with rowL := Profile.reset.rowL, rowR := Profile.reset.rowR, rowC := Profile.reset.rowC,
           rowS := Profile.reset.rowS, loaded := 0#4 }

/-! ### The MX4 computation (R82 to R86) -/

/-- An envelope's new value; `/` rounds toward minus infinity (R83). -/
def envelope (attack release : Nat) (e a : Int) : Int := e + (a - e) / 2 ^ (if e < a then attack else release)

/-- A dominance index from its two envelopes, or its last value below the floor (R84). -/
def dominance (floor : Nat) (last x y : Int) : Int :=
  if (floor : Int) ≤ x + y ∧ x + y ≠ 0 then (2 * (16 * (x - y)) + (x + y)) / (2 * (x + y)) else last

/-- The sum half m and the difference half q (R82). -/
def sumHalf (lt rt : Int) : Int := (lt + rt) / 2
def diffHalf (lt rt : Int) : Int := (lt - rt) / 2

/-- The envelopes and indices after one period (R83, R84). -/
def DecodeState.advance (p : Profile) (st : DecodeState) (lt rt : Int) : DecodeState :=
  let eL := envelope p.attack p.release st.eL lt.natAbs
  let eR := envelope p.attack p.release st.eR rt.natAbs
  let eS := envelope p.attack p.release st.eS (sumHalf lt rt).natAbs
  let eD := envelope p.attack p.release st.eD (diffHalf lt rt).natAbs
  ⟨eL, eR, eS, eD, dominance p.floor st.lr eL eR, dominance p.floor st.cs eS eD⟩

/-- The pair of a row at an index from −16 to 16 (R85). -/
def pairAt (row : Vector (Int × Int) 33) (ix : Int) : Int × Int := row.toList.getD (ix + 16).toNat (0, 0)

/-- A decode output before saturation (R85). -/
def decodeRaw (row : Vector (Int × Int) 33) (ix lt rt : Int) : Int :=
  scale ((pairAt row ix).1 * lt + (pairAt row ix).2 * rt) 22

/-- The output of a name before saturation; every output of a profile that is not READY is 0 (R85, R86). -/
def decodeOut (p : Profile) (st : DecodeState) (lt rt : Int) (o : DecOut) : Int :=
  if p.ready then
    match o with
    | .l => decodeRaw p.rowL st.lr lt rt
    | .r => decodeRaw p.rowR st.lr lt rt
    | .c => decodeRaw p.rowC st.cs lt rt
    | .s => decodeRaw p.rowS st.cs lt rt
  else 0

/-- A source value with the clip its decode output counts for the channel (R54, R85). -/
def sourceValue (prog : Vector Int 16) (dec : DecOut → Int) : OutSrc → Int × Nat
  | .program c => (prog[c], 0)
  | .decode o => (saturate (dec o), clipOf (dec o))
  | .none => (0, 0)

/-! ### A room's audio in one sample period (R53, R70, R115) -/

/-- The profile named by the active entry (R70). -/
def State.activeProfile (s : State) (rm : RoomRec) : Profile := s.profiles[rm.entry.profile]

/-- The decode state of a period in which the chain runs: it advances only under an MX4 entry (R70). -/
def RoomRec.decodeStep (rm : RoomRec) (p : Profile) : DecodeState :=
  if rm.entry.mode = .mx4 then rm.decode.advance p rm.prog[(0 : Fin 16)] rm.prog[(1 : Fin 16)] else rm.decode

/-- The source of output channel `k` (R54). -/
def RoomRec.source (rm : RoomRec) (p : Profile) (k : Chan) : Int × Nat :=
  sourceValue rm.prog (decodeOut p (rm.decodeStep p) rm.prog[(0 : Fin 16)] rm.prog[(1 : Fin 16)]) rm.entry.map[k]

/-- The chain of output channel `k` in the present period (R53 to R57). -/
def RoomRec.chainOut (rm : RoomRec) (p : Profile) (k : Chan) : ChainOut :=
  chain (rm.bank rm.bankInService).chans[k] rm.hist[k] rm.gain.g rm.dip.d rm.path.p (rm.source p k).1

/-- The demand of a period (R115). -/
def RoomRec.demandNow (rm : RoomRec) : Nat :=
  if rm.path.state.runs then
    (if rm.entry.mode = .mx4 then Config.decodeCost else 0) + (rm.bank rm.bankInService).active
  else 0

/-- The chains of a room run: history, meters, clips, envelopes and demand (R53, R118). The meters take the period unless the block
that it completes has ended (`counted` false). -/
def RoomRec.runChains (rm : RoomRec) (p : Profile) (counted : Bool) : RoomRec :=
  let outs : Vector ChainOut 16 := Vector.ofFn fun k => rm.chainOut p k
  let rm1 := rm.setHist (Vector.ofFn fun k => outs[k].hist)
  { rm1 with
    decode := rm.decodeStep p
    meters := if counted then Vector.ofFn fun k => rm.meters[k].take outs[k].t (outs[k].clips + (rm.source p k).2) else rm.meters
    demand := rm.demandNow }

/-- The chains of a room in LIVE or PARKED come ahead of the events of the period that are still to come: they use the bank in service
with its history, the envelopes and indices, the room gain and the dip factor as they stand now (R57, R58, R81, R101). The format entry
is not among them: one that a later event of the period puts in force is in force for the period's chains (R67, R74). DESIGN CHOICE,
assumption 18. -/
def RoomRec.putAhead (rm : RoomRec) : RoomRec :=
  if rm.ahead = none ∧ rm.path.state.runs = true then
    { rm with ahead := some ⟨rm.bank rm.bankInService, rm.hist, rm.decode, rm.gain.g, rm.dip.d, true, true⟩ }
  else rm

/-- The room as its chains see it: where they come ahead of events of their period, with what they use from before these (R58, R81,
R101). -/
def RoomRec.asChained (rm : RoomRec) : RoomRec :=
  match rm.ahead with
  | none => rm
  | some e =>
    ({ rm with decode := e.decode, gain := { rm.gain with g := e.g }, dip := { rm.dip with d := e.d } }.setBank rm.bankInService
      e.bank).setHist e.hist

/-- The chains of a room that come ahead of events of their period: what they write to the history, or to the envelopes and indices,
is discarded where one of those events has set it to 0 (R58, R81). Their demand counts the ACTIVE slots of the bank that they use (R101),
also where that is no longer in service and a load of the period has lowered its count, and the commitment, since (R110, R115). DESIGN
CHOICE, assumption 19. -/
def RoomRec.runEarly (rm : RoomRec) (e : Early) (p : Profile) (counted : Bool) : RoomRec :=
  let out := rm.asChained.runChains p counted
  { rm with
    histA := if e.histStands then out.histA else rm.histA
    histB := if e.histStands then out.histB else rm.histB
    decode := if e.decodeStands then out.decode else rm.decode
    meters := out.meters
    demand := out.demand
    ahead := none }

/-- A room's share of the close of a sample period: the chains of a room in LIVE or PARKED run, once, and nothing of another room is
computed (R53, R70). -/
def RoomRec.runPeriod (rm : RoomRec) (p : Profile) (counted : Bool) : RoomRec :=
  if rm.path.state.runs then
    match rm.ahead with
    | none => rm.runChains p counted
    | some e => rm.runEarly e p counted
  else { rm with demand := rm.demandNow, ahead := none }

/-- The pilot in the period of an attempt with that number: runs of 24 (R18). -/
def pilot (n : Nat) : Int := if (n - 1) % 48 < 24 then Config.pilotLevel else -Config.pilotLevel

/-- The pilot of a sample period: the channel whose lane carries it and the number of the period in its attempt. Where a rack word
of the period has been judged for the attempt it is that one, also after the attempt or the proof has ended with the word; otherwise
that of the attempt in progress (R18). DEDUCED, assumption 4. -/
def Path.pilotNow (p : Path) : Option (Chan × Nat) :=
  match p.pilotSent with
  | some x => some x
  | none => if p.state = .prove ∧ 0 < p.seqCount then p.proofPos.map fun pos => (pos.chan, p.seqCount) else none

/-- The sample on the rack lane of output channel `k` (R6, R18); the path stage takes p as it stands when the frame leaves (R57). -/
def RoomRec.laneSample (rm : RoomRec) (p : Profile) (k : Chan) : Int :=
  match rm.path.state with
  | .live | .parked => (rm.asChained.chainOut p k).w
  | .halted => 0
  | .off | .listen | .ready | .prove =>
    match rm.path.pilotNow with
    | some x => if x.1 = k then pilot x.2 else 0
    | none => 0

/-! ### Profiles in service (R79) -/

/-- An entry is MX4 and names the profile. -/
def FormatEntry.names (e : FormatEntry) (p : Fin 4) : Bool := decide (e.mode = .mx4 ∧ e.profile = p)

/-- The room holds the profile in service (R79). -/
def RoomRec.holdsProfile (rm : RoomRec) (p : Fin 4) : Bool :=
  (decide (rm.path.state ≠ .off) && rm.entry.names p)
    || (match rm.dip.fmtSlot with | some i => rm.formats[i].names p | none => false)

/-- Some room holds the profile in service (R79). -/
def State.profileInService (s : State) (p : Fin 4) : Bool :=
  (List.finRange 12).any fun r => (s.room r).holdsProfile p

/-- Change one profile. -/
def State.modProfile (s : State) (p : Fin 4) (f : Profile → Profile) : State :=
  { s with profiles := s.profiles.set p.val (f s.profiles[p]) p.isLt }

/-! ### Requests (R73, R76 to R78) -/

/-- The selection of a format, by request or cue action: the readiness check, then the dip machine (R73). -/
def State.selectFormat (s : State) (r : Room) (i : Fin 4) : State × Result :=
  let e := (s.room r).formats[i]
  if e.mode = .mx4 ∧ s.profiles[e.profile].ready = false then (s, .wrongState) else (s.handOn r (.format i), .ok)

/-- SELECT_FORMAT (R73). -/
def State.reqSelectFormat (s : State) (r : Room) (body : List Payload) : Answer :=
  match below 4 (arg body 0) with
  | some i => ((s.selectFormat r i).1, (s.selectFormat r i).2, [])
  | none => s.refuse .badField

/-- CLEAR_PROFILE (R76, R79). -/
def State.reqClearProfile (s : State) (body : List Payload) : Answer :=
  match below 4 (arg body 0) with
  | none => s.refuse .badField
  | some p => if s.profileInService p then s.refuse .inService else (s.modProfile p Profile.clear).accept []

/-- The 33 pairs of a LOAD_PROFILE_ROW body: entry e's in words 3 + 2e and 4 + 2e, counted from 1 (R215). -/
def pairsOf (body : List Payload) : Vector (Int × Int) 33 :=
  Vector.ofFn fun e => (coefArg body (2 + 2 * e.val), coefArg body (3 + 2 * e.val))

/-- LOAD_PROFILE_ROW (R77, R79): the reply carries the state after the load. -/
def State.reqLoadProfileRow (s : State) (body : List Payload) : Answer :=
  match below 4 (arg body 0), Row.ofCode (arg body 1) with
  | some p, some row =>
    if s.profileInService p then s.refuse .inService
    else
      let s1 := s.modProfile p fun x => x.loadRow row (pairsOf body)
      s1.accept [.bits 2 s1.profiles[p].stateCode]
  | _, _ => s.refuse .badField

/-- SET_PROFILE_PARAMS (R78, R79): the reply carries the clamped values. -/
def State.reqSetProfileParams (s : State) (body : List Payload) : Answer :=
  match below 4 (arg body 0) with
  | none => s.refuse .badField
  | some p =>
    if s.profileInService p then s.refuse .inService
    else
      let floor := min Config.maxMagnitude (arg body 1)
      let attack := clamp 1 15 (arg body 2)
      let release := clamp 1 15 (arg body 3)
      (s.modProfile p fun x => { x with floor := floor, attack := attack, release := release }).accept
        [.bits 24 floor, .bits 4 attack, .bits 4 release]

end Sys2Proof.Machine
end

