-- ==== Sys2Proof/Machine/Budget.lean ====
section
/-! DEFINITION. The processing budget (06): commitments, the committed total and the admission of loads; and
SET_FORMAT_ENTRY, the load of a format entry (R71). -/

namespace Sys2Proof.Machine

/-- The decode term: 40 when any of the four entries is MX4 (R109). -/
def RoomRec.decodeTerm (rm : RoomRec) : Nat :=
  if (List.finRange 4).any fun i => decide (rm.formats[i].mode = .mx4) then Config.decodeCost else 0

/-- The section term: the larger of the two ACTIVE counts (R109). -/
def RoomRec.sectionTerm (rm : RoomRec) : Nat := max rm.bankA.active rm.bankB.active

/-- The commitment that R109 gives for the tables a room holds. -/
def RoomRec.charge (rm : RoomRec) : Nat := rm.decodeTerm + rm.sectionTerm

/-- The prospective total of a load that leaves room `r` with commitment `c` (R111). -/
def State.prospective (s : State) (r : Room) (c : Nat) : Nat := s.committedTotal + c - (s.room r).commitment

/-- The load is refused with OVER_BUDGET: above the budget and above the present total (R111). -/
def State.overBudget (s : State) (r : Room) (c : Nat) : Bool :=
  decide (Config.budget < s.prospective r c ∧ s.committedTotal < s.prospective r c)

/-- A load is applied: the room's tables become those of `rm`, and commitment and total are brought up to date in the
same event (R110). -/
def State.commitLoad (s : State) (r : Room) (rm : RoomRec) : State :=
  { (s.modRoom r fun _ => { rm with commitment := rm.charge }) with committedTotal := s.prospective r rm.charge }

/-- The four fields of a refusal with OVER_BUDGET (R113). -/
def State.budgetFields (s : State) (r : Room) (c : Nat) : List Fld :=
  [.bits 8 (s.room r).commitment, .bits 8 c, .bits 11 s.committedTotal, .bits 11 (Config.budget - s.committedTotal)]

/-- Commitment and committed total as they stand, the fields of an accepted load (R113). -/
def State.loadFields (s : State) (r : Room) : List Fld :=
  [.bits 8 (s.room r).commitment, .bits 11 s.committedTotal]

/-! ### SET_FORMAT_ENTRY (R71, R72) -/

/-- The entry a SET_FORMAT_ENTRY body gives, when its fields are in range and agree (R71). -/
def entryOf (body : List Payload) : Option FormatEntry :=
  match Mode.ofCode (arg body 1), below 4 (arg body 2), decodeAll OutSrc.ofCode body 3 16 with
  | some m, some p, some l =>
    if m = .discrete ∧ l.any (fun x => match x with | .decode _ => true | _ => false) = true then none
    else some ⟨m, p, vecOf 16 .none l⟩
  | _, _, _ => none

/-- The entry is in service: active in a room that is not OFF, or the target in the format slot (R71). -/
def RoomRec.entryInService (rm : RoomRec) (i : Fin 4) : Bool :=
  decide (rm.activeFormat = i ∧ rm.path.state ≠ .off) || decide (rm.dip.fmtSlot = some i)

/-- The room with the entry written; an entry into MX4 of the active entry zeroes the envelopes and indices (R72). -/
def RoomRec.writeEntry (rm : RoomRec) (i : Fin 4) (e : FormatEntry) : RoomRec :=
  { rm with
    formats := rm.formats.set i.val e i.isLt
    decode := if rm.activeFormat = i ∧ rm.formats[i].mode = .discrete ∧ e.mode = .mx4 then .zero else rm.decode }

/-- SET_FORMAT_ENTRY (R71). -/
def State.reqSetFormatEntry (s : State) (r : Room) (body : List Payload) : Answer :=
  match below 4 (arg body 0), entryOf body with
  | some i, some e =>
    if (s.room r).entryInService i then s.refuse .inService
    else
      let rm := (s.room r).writeEntry i e
      if s.overBudget r rm.charge then s.refuseWith .overBudget (s.budgetFields r rm.charge)
      else (s.commitLoad r rm).accept ((s.commitLoad r rm).loadFields r)
  | _, _ => s.refuse .badField

end Sys2Proof.Machine
end

