-- ==== Sys2Proof/Machine/Equaliser.lean ====
section
/-! DEFINITION. Room equalisation (05): section tags and the four loads of a standby bank. -/

namespace Sys2Proof.Machine

/-! ### Tags (R89) -/

/-- The stability test, both comparisons strict (R89). -/
def Coefs.stable (c : Coefs) : Bool :=
  decide ((c.a2.natAbs : Int) < Config.oneCoef ∧ (c.a1.natAbs : Int) < Config.oneCoef + c.a2)

/-- The coefficients of no filter at all (R89). -/
def Coefs.isUnity (c : Coefs) : Bool :=
  decide (c.b0 = Config.oneCoef ∧ c.b1 = 0 ∧ c.b2 = 0 ∧ c.a1 = 0 ∧ c.a2 = 0)

/-- The tag of a slot written with these coefficients (R89). -/
def Coefs.tag (c : Coefs) : Tag := if c.isUnity then .unity else if c.stable then .active else .rejected

/-! ### Counts (R90) -/

/-- The number of the 128 slots with a tag (R90). -/
def countTags (t : Tag) (chans : Vector ChanEq 16) : Nat :=
  ((List.finRange 16).map fun k => (List.finRange 8).countP fun i => decide (chans[k].slots[i].tag = t)).sum

/-- A bank of these channel records, with the counts its tags give (R90, R108). -/
def Bank.ofChans (chans : Vector ChanEq 16) : Bank := ⟨chans, countTags .active chans, countTags .rejected chans⟩

/-! ### Checks of a load (R92) -/

/-- IN_SERVICE and BANK_BUSY, in that order (R92). -/
def RoomRec.bankCheck (rm : RoomRec) (n : BankName) : Option Result :=
  if rm.bankInService = n then some .inService
  else if rm.dip.bankSlot = some n then some .bankBusy else none

/-! ### LOAD_SECTIONS (R93, R94) -/

/-- The five coefficients of the `j`-th slot given (R215). -/
def coefsAt (body : List Payload) (j : Nat) : Coefs :=
  ⟨coefArg body (4 + 5 * j), coefArg body (5 + 5 * j), coefArg body (6 + 5 * j), coefArg body (7 + 5 * j),
    coefArg body (8 + 5 * j)⟩

/-- The tags a load gives, in slot order (R94). -/
def loadTags (body : List Payload) (count : Nat) : List Tag := (List.range count).map fun j => (coefsAt body j).tag

/-- A channel record with `count` slots from slot `first` (counted from 1) on written (R93). -/
def ChanEq.load (ch : ChanEq) (body : List Payload) (first count : Nat) : ChanEq :=
  { ch with slots := Vector.ofFn fun i =>
      if first ≤ i.val + 1 ∧ i.val + 1 < first + count then
        ⟨coefsAt body (i.val + 1 - first), (coefsAt body (i.val + 1 - first)).tag⟩
      else ch.slots[i] }

/-- The bank with a channel loaded, its counts brought up to date (R93). -/
def Bank.load (bk : Bank) (c : Chan) (body : List Payload) (first count : Nat) : Bank :=
  .ofChans (bk.chans.set c.val (bk.chans[c].load body first count) c.isLt)

/-- A list of tags: its count in the width of the largest, 8, then the tags (R217). -/
def tagFields (tags : List Tag) : List Fld := .bits 4 tags.length :: tags.map fun t => .bits 2 t.code

/-- LOAD_SECTIONS (R92 to R94). A refusal with OVER_BUDGET gives the tags and the prospective ACTIVE count of R94 ahead of the four
numbers of R113. DEDUCED, assumption 9. -/
def State.reqLoadSections (s : State) (r : Room) (body : List Payload) : Answer :=
  let first := arg body 2
  let count := arg body 3
  match BankName.ofCode (arg body 0), below 16 (arg body 1) with
  | some n, some c =>
    if first = 0 ∨ 8 < first ∨ count = 0 ∨ 8 < count ∨ 9 < first + count then s.refuse .badField
    else
      match (s.room r).bankCheck n with
      | some res => s.refuse res
      | none =>
        let bk := ((s.room r).bank n).load c body first count
        let rm := (s.room r).setBank n bk
        if s.overBudget r rm.charge then
          s.refuseWith .overBudget (tagFields (loadTags body count) ++ .bits 8 bk.active :: s.budgetFields r rm.charge)
        else
          (s.commitLoad r rm).accept
            (tagFields (loadTags body count) ++ .bits 8 bk.active :: .bits 8 bk.rejected
              :: (s.commitLoad r rm).loadFields r)
  | _, _ => s.refuse .badField

/-! ### SET_TRIMS, CLEAR_BANK and COPY_BANK (R95 to R97) -/

/-- The clamped trim of channel `k` (R95). -/
def trimArg (body : List Payload) (k : Nat) : Nat := min Config.maxGain (arg body (1 + k))

/-- SET_TRIMS (R95). -/
def State.reqSetTrims (s : State) (r : Room) (body : List Payload) : Answer :=
  match BankName.ofCode (arg body 0) with
  | none => s.refuse .badField
  | some n =>
    match (s.room r).bankCheck n with
    | some res => s.refuse res
    | none =>
      let bk := (s.room r).bank n
      let new : Bank := { bk with chans := Vector.ofFn fun k => { bk.chans[k] with trim := trimArg body k.val } }
      let s1 := s.modRoom r fun rm => rm.setBank n new
      s1.accept (((List.range 16).map fun k => .bits 17 (trimArg body k)) ++ s1.loadFields r)

/-- CLEAR_BANK (R96). -/
def State.reqClearBank (s : State) (r : Room) (body : List Payload) : Answer :=
  match BankName.ofCode (arg body 0) with
  | none => s.refuse .badField
  | some n =>
    match (s.room r).bankCheck n with
    | some res => s.refuse res
    | none =>
      let rm := (s.room r).setBank n .cleared
      if s.overBudget r rm.charge then s.refuseWith .overBudget (s.budgetFields r rm.charge)
      else (s.commitLoad r rm).accept ((s.commitLoad r rm).loadFields r)

/-- COPY_BANK: the source is the bank in service (R97). -/
def State.reqCopyBank (s : State) (r : Room) (body : List Payload) : Answer :=
  match BankName.ofCode (arg body 0) with
  | none => s.refuse .badField
  | some n =>
    match (s.room r).bankCheck n with
    | some res => s.refuse res
    | none =>
      let bk := (s.room r).bank (s.room r).bankInService
      let rm := (s.room r).setBank n bk
      if s.overBudget r rm.charge then s.refuseWith .overBudget (s.budgetFields r rm.charge)
      else
        (s.commitLoad r rm).accept
          (.bits 8 bk.active :: .bits 8 bk.rejected :: (s.commitLoad r rm).loadFields r)

end Sys2Proof.Machine
end

