-- ==== Sys2Proof/Machine/Rooms.lean ====
section
/-! DEFINITION. Rooms and the output path (01): go requests, the pilot proof, the rack word, path ramps, the supply warning's
effect on a room, and SET_ROOM. -/

namespace Sys2Proof.Machine

/-! ### Fitted channels and the proof record (R17 to R19) -/

/-- Channel `k` is fitted. -/
def Path.isFitted (p : Path) (k : Chan) : Bool := p.fitted.getLsbD k.val

/-- The lowest fitted channel that satisfies `f` (R17, R19). -/
def Path.lowestFitted (p : Path) (f : Chan → Bool) : Option Chan :=
  (List.finRange 16).find? fun k => p.isFitted k && f k

/-- Every fitted channel is PASSED (R19, R26). -/
def Path.allPassed (p : Path) : Bool :=
  (List.finRange 16).all fun k => !p.isFitted k || decide (p.record[k].result = .passed)

/-- Change the record of one channel. -/
def Path.modRecord (p : Path) (k : Chan) (f : ProofEntry → ProofEntry) : Path :=
  { p with record := p.record.set k.val (f p.record[k]) k.isLt }

/-- A pilot attempt begins: attempts used gains one and the sequence count is 0 (R18). -/
def Path.beginAttempt (p : Path) (pos : ProofPos) : Path :=
  { p.modRecord pos.chan (fun e => { e with attempts := e.attempts + 1 }) with
    proofPos := some pos, nextAttempt := none, seqCount := 0 }

/-! ### Ramps (R25) -/

/-- A path ramp begins from the present p (R25). -/
def Path.beginRamp (p : Path) (ph : Phase) (p1 len : Nat) : Path :=
  { p with phase := ph, ramp := some ⟨p.p, p1, len, 0⟩ }

/-- A ramp's step in one sample period; a ramp at its last step does not go beyond it (R25). -/
def Ramp.advance (r : Ramp) : Ramp := { r with n := min r.len (r.n + 1) }

/-- The value of a ramp at its step (R25). -/
def Ramp.value (r : Ramp) : Nat := interp r.p0 r.p1 r.len r.n

/-- The ramp has reached its last step (R25). -/
def Path.rampDue (p : Path) : Bool :=
  match p.ramp with
  | some r => decide (r.len ≤ r.n)
  | none => false

/-! ### Go requests (R14 to R24) -/

/-- GO_LISTEN (R15). -/
def State.goListen (s : State) (r : Room) : State × Result :=
  match (s.room r).path.state with
  | .off | .halted => (s.transit r [] RoomRec.toSettling, .ok)
  | .listen | .ready | .prove | .live | .parked => (s, .wrongState)

/-- The room at an accepted GO_PROVE: the record is cleared, and the first attempt begins on the lowest fitted channel; with
an empty fitted set the proof ends at once with proven yes (R17). -/
def RoomRec.toProve (rm : RoomRec) : RoomRec :=
  let p0 : Path := { rm.path with record := clearRecord, proven := false }
  match p0.lowestFitted fun _ => true with
  | none => { rm with path := { p0 with proven := true } }
  | some k => { rm with path := { p0 with state := .prove, phase := .proving }.beginAttempt ⟨k, 1⟩ }

/-- GO_PROVE (R17). -/
def State.goProve (s : State) (r : Room) : State × Result :=
  match (s.room r).path.state with
  | .ready =>
    if ((s.room r).path.lowestFitted fun _ => true) = none then
      (s.transit r [.proofDone true clearRecord] RoomRec.toProve, .ok)
    else (s.transit r [] RoomRec.toProve, .ok)
  | .listen => (s, .seqBusy)
  | .off | .prove | .live | .parked | .halted => (s, .wrongState)

/-- The room enters LIVE in phase ramping-in (R20). -/
def RoomRec.toLive (rm : RoomRec) : RoomRec :=
  { rm with path := { rm.path with state := .live }.beginRamp .rampingIn Config.unity Config.rampLen }

/-- The room enters LIVE from READY: filter history, envelopes and indices become 0 (R20, R58, R81). -/
def RoomRec.toLiveFresh (rm : RoomRec) : RoomRec := rm.toLive.zeroHistory.zeroDecode

/-- GO_LIVE (R20): SEQ_BUSY in PROVE, as R20 says; the example of R160 names WRONG_STATE there, which the cue action GO gives.
DESIGN CHOICE, assumption 17. -/
def State.goLive (s : State) (r : Room) : State × Result :=
  match (s.room r).path.state with
  | .ready => if (s.room r).path.proven then (s.transit r [] RoomRec.toLiveFresh, .ok) else (s, .wrongState)
  | .parked => (s.transit r [] RoomRec.toLive, .ok)
  | .live => if (s.room r).path.phase = .none then (s, .wrongState) else (s, .seqBusy)
  | .listen | .prove => (s, .seqBusy)
  | .off | .halted => (s, .wrongState)

/-- GO_PARK (R21). -/
def State.goPark (s : State) (r : Room) : State × Result :=
  if (s.room r).path.state = .live then
    match (s.room r).path.phase with
    | .none =>
      (s.modRoom r fun rm => { rm with path := rm.path.beginRamp .rampingOutPark 0 Config.rampLen }, .ok)
    | .rampingIn => (s, .seqBusy)
    | _ => (s, .wrongState)
  else (s, .wrongState)

/-- GO_OFF (R22). -/
def State.goOff (s : State) (r : Room) : State × Result :=
  match (s.room r).path.state with
  | .off => (s, .ok)
  | .live =>
    if (s.room r).path.phase = .rampingOutOff then (s, .ok)
    else (s.modRoom r fun rm => { rm with path := rm.path.beginRamp .rampingOutOff 0 Config.rampLen }, .ok)
  | .listen | .ready | .prove | .parked | .halted => (s.enterOff r, .ok)

/-- The room after its proof is cancelled: READY with the record cleared and proven no (R24, R27). -/
def RoomRec.toReadyCancelled (rm : RoomRec) : RoomRec :=
  let rm1 := rm.toPlain .ready
  { rm1 with path := { rm1.path with record := clearRecord, proven := false } }

/-- The room enters PARKED with p at 0 (R24, R25). -/
def RoomRec.toParked (rm : RoomRec) : RoomRec :=
  let rm1 := rm.toPlain .parked
  { rm1 with path := { rm1.path with p := 0 } }

/-- GO_STOP (R24). -/
def State.goStop (s : State) (r : Room) : State × Result :=
  match (s.room r).path.phase with
  | .settling | .debouncing | .rampingOutOff => (s.enterOff r, .ok)
  | .proving => (s.transit r [] RoomRec.toReadyCancelled, .ok)
  | .rampingIn | .rampingOutPark => (s.transit r [] RoomRec.toParked, .ok)
  | .supplyRamp | .none => (s, .ok)

/-- A go request is judged: while the supply warning is asserted only GO_OFF and GO_STOP are, and then the rule of the
target decides (R14). -/
def State.goJudge (s : State) (r : Room) (t : GoTarget) : State × Result :=
  match t with
  | .goOff => s.goOff r
  | .goStop => s.goStop r
  | .goListen => if s.supply then (s, .supplyLow) else s.goListen r
  | .goProve => if s.supply then (s, .supplyLow) else s.goProve r
  | .goLive => if s.supply then (s, .supplyLow) else s.goLive r
  | .goPark => if s.supply then (s, .supplyLow) else s.goPark r

/-- The request GO: the reply carries the state and phase after an acceptance (R14). -/
def State.reqGo (s : State) (r : Room) (body : List Payload) : Answer :=
  match GoTarget.ofCode (arg body 0) with
  | none => s.refuse .badField
  | some t =>
    let out := s.goJudge r t
    if out.2 = .ok then
      out.1.accept [.bits 3 (out.1.room r).path.state.code, .bits 3 (out.1.room r).path.phase.code]
    else out.1.refuse out.2

/-! ### The pilot proof (R18, R19) -/

/-- The proof ends: proven by the record, READY, ROOM_STATE and then PROOF_DONE (R19). -/
def State.endProof (s : State) (r : Room) (rec : Vector ProofEntry 16) : State :=
  let done : Path := { (s.room r).path with record := rec }
  s.transit r [.proofDone done.allPassed rec] fun rm =>
    let rm1 := rm.toPlain .ready
    { rm1 with path := { rm1.path with record := rec, proven := done.allPassed } }

/-- A channel has its result: the next higher fitted channel follows, or the proof ends (R19). -/
def State.channelDone (s : State) (r : Room) (k : Chan) (res : ProofResult) : State :=
  let p := (s.room r).path.modRecord k fun e => { e with result := res }
  if res = .failed ∧ p.policy = .stopAtFirst then s.endProof r p.record
  else
    match p.lowestFitted fun j => decide (k < j) with
    | some j => s.modRoom r fun rm => { rm with path := { p with nextAttempt := some ⟨j, 1⟩ } }
    | none => s.endProof r p.record

/-- The attempt at this position fails: a retry begins in the following sample period, or after the third the channel
becomes FAILED (R18). -/
def State.failAttempt (s : State) (r : Room) (pos : ProofPos) : State :=
  if pos.attempt < Config.maxAttempts then
    s.modRoom r fun rm => { rm with path := { rm.path with nextAttempt := some ⟨pos.chan, pos.attempt + 1⟩ } }
  else s.channelDone r pos.chan .failed

/-- The attempt in progress, when it is in a period in which its lane carries pilot (R18). -/
def Path.attemptRunning (p : Path) : Option ProofPos :=
  if p.state = .prove ∧ p.nextAttempt = none ∧ 0 < p.seqCount then p.proofPos else none

/-- The attempt in its period 1,920, not passed (R18). -/
def Path.attemptOver (p : Path) : Option ProofPos :=
  if Config.pilotAttempt ≤ p.seqCount then p.attemptRunning else none

/-- A pilot attempt has reached period 1,920 without a pass and fails (R18). -/
def State.attemptTimeout (s : State) (r : Room) : State :=
  match (s.room r).path.attemptOver with
  | some pos => s.failAttempt r pos
  | none => s

/-- The return passes the attempt (R18). -/
def Path.returnPasses (p : Path) (w : RackWord) : Bool :=
  w.valid && decide (p.proofMin ≤ w.level ∧ w.level ≤ p.proofMax)

/-- The channel's lane carries the attempt's pilot in the present period, whatever the word of the period ends (R18). -/
def Path.sendPilot (p : Path) (k : Chan) : Path := { p with pilotSent := some (k, p.seqCount) }

/-- The return fields of a rack word in PROVE are judged for the attempt, whose pilot the period's frame then carries (R18). -/
def State.judgeReturn (s : State) (r : Room) (w : RackWord) : State :=
  match (s.room r).path.attemptRunning with
  | none => s
  | some pos =>
    let s1 := s.modRoom r fun rm => { rm with path := rm.path.sendPilot pos.chan }
    if (s.room r).path.returnPasses w then s1.channelDone r pos.chan .passed else s1.attemptTimeout r

/-! ### The rack word (R8 to R16) -/

/-- A rack loss is taken in the state the room is in (R10 to R12). -/
def State.rackLoss (s : State) (r : Room) : State :=
  match (s.room r).path.state with
  | .ready => s.transit r [.rackGone .ready] RoomRec.toDebouncing
  | .prove => s.transit r [.rackGone .prove] RoomRec.toDebouncing
  | .live | .parked => s.enterHalted r
  | .off | .listen | .halted => s

/-- The debounce run is complete: READY, ROOM_STATE and then RACK_FOUND (R16). -/
def State.debounceDone (s : State) (r : Room) : State := s.transit r [.rackFound] (RoomRec.toPlain .ready)

/-- A rack word in phase debouncing (R16). -/
def State.debounce (s : State) (r : Room) (present : Bool) : State :=
  if (s.room r).path.debounceHeld then s
  else if !present then s.modRoom r fun rm => { rm with path := { rm.path with seqCount := 0 } }
  else if Config.debounce ≤ (s.room r).path.seqCount + 1 then s.debounceDone r
  else s.modRoom r fun rm => { rm with path := { rm.path with seqCount := rm.path.seqCount + 1 } }

/-- The word completes a rack loss (R9). -/
def Path.completesLoss (p : Path) (present : Bool) : Bool :=
  !present && decide (Config.rackLoss ≤ p.rackAbsence + 1)

/-- The rack absence run after a word that completes no loss (R9). -/
def Path.countAbsence (p : Path) (present : Bool) : Path :=
  { p with rackAbsence := if present then 0 else p.rackAbsence + 1 }

/-- A rack word observed for presence in READY, PROVE, LIVE or PARKED (R9). -/
def State.observe (s : State) (r : Room) (present : Bool) : State :=
  if (s.room r).path.completesLoss present then s.rackLoss r
  else s.modRoom r fun rm => { rm with path := rm.path.countAbsence present }

/-- The word's wake field is a rise in PARKED (R13). -/
def Path.wakes (p : Path) (w : RackWord) : Bool := decide (p.state = .parked) && w.wake && !p.lastRack.wake

/-- The last rack word becomes `w`, with RACK_WAKE at a rise of wake in PARKED (R8, R13). -/
def State.storeRack (s : State) (r : Room) (w : RackWord) : State :=
  let s1 := s.modRoom r fun rm => { rm with path := { rm.path with lastRack := w, rackTaken := true } }
  if (s.room r).path.wakes w then s1.notify r .rackWake else s1

/-- A rack word is taken by its room (R8): its effect by state and phase. In PROVE presence is applied first, and a word
that completes a loss is not applied to the attempt. DEDUCED, assumption 4. -/
def State.takeRack (s : State) (r : Room) (w : RackWord) : State :=
  let s1 := s.storeRack r w
  match (s.room r).path.state with
  | .off | .halted => s1
  | .listen => if (s.room r).path.phase = .debouncing then s1.debounce r w.present else s1
  | .ready | .live | .parked => s1.observe r w.present
  | .prove =>
    if (s.room r).path.completesLoss w.present then s1.rackLoss r
    else (s1.observe r w.present).judgeReturn r w

/-! ### Ends of counts and ramps (R15, R25) -/

/-- Settling has its 4,800 periods (R15). -/
def Path.settlingDue (p : Path) : Bool := decide (p.phase = .settling ∧ Config.settling ≤ p.seqCount)

/-- The settling phase ends: debouncing with a run of 0, observed from the next sample period on (R15). -/
def State.settlingEnd (s : State) (r : Room) : State :=
  s.modRoom r fun rm => { rm with path := { rm.path with phase := .debouncing, seqCount := 0, debounceHeld := true } }

/-- A path ramp ends: LIVE with phase none, PARKED, or OFF, by the ramp's phase (R25). -/
def State.rampEnd (s : State) (r : Room) : State :=
  match (s.room r).path.phase with
  | .rampingIn => s.modRoom r (RoomRec.toPlain .live)
  | .rampingOutPark | .supplyRamp => s.transit r [] RoomRec.toParked
  | .rampingOutOff => s.enterOff r
  | .none | .settling | .debouncing | .proving => s

/-! ### The supply warning in a room (R27) -/

/-- The assertion's effect on a room (R27). -/
def State.supplyRoom (r : Room) (s : State) : State :=
  match (s.room r).path.state with
  | .live =>
    s.modRoom r fun rm => { rm with path := rm.path.beginRamp .supplyRamp 0 Config.supplyRampLen }
  | .prove => s.transit r [] RoomRec.toReadyCancelled
  | .off | .listen | .ready | .parked | .halted => s

/-! ### SET_ROOM (R29) -/

/-- The room with its fitted set, proof limits and policy written, the record cleared and proven no (R29). -/
def RoomRec.setRoom (rm : RoomRec) (fitted : BitVec 16) (lo hi : Nat) (pol : Policy) : RoomRec :=
  { rm with path := { rm.path with
      fitted := fitted, proofMin := lo, proofMax := hi, policy := pol, record := clearRecord, proven := false } }

/-- A return level as SET_ROOM clamps it (R29). -/
def clampLevel (v : Nat) : Nat := min 8388607 v

/-- SET_ROOM (R29). -/
def State.reqSetRoom (s : State) (r : Room) (body : List Payload) : Answer :=
  match Policy.ofCode (arg body 3) with
  | none => s.refuse .badField
  | some pol =>
    let lo := clampLevel (arg body 1)
    let hi := clampLevel (arg body 2)
    if hi < lo then s.refuse .badField
    else
      match (s.room r).path.state with
      | .off | .listen | .ready =>
        (s.modRoom r fun rm => rm.setRoom (BitVec.ofNat 16 (arg body 0)) lo hi pol).accept []
      | .prove | .live | .parked | .halted => s.refuse .wrongState

end Sys2Proof.Machine
end

