-- ==== Sys2Proof/Machine/Cues.lean ====
section
/-! DEFINITION. Booth cues (08): actions and firings, the cursor on timecode events, alarm and contact cues, timers, drafts
and lists. Masks (R128) and contact outputs (R184) stand here too, because cue actions set them. -/

namespace Sys2Proof.Machine

/-! ### Masks (R128) -/

/-- A mask of a set of kinds for a number of blocks: clamped, and ended by an empty set (R128). -/
def Mask.of (kinds : BitVec 4) (blocks : Nat) : Mask :=
  if kinds = 0#4 then .none else ⟨kinds, clamp 1 Config.maskMax blocks⟩

/-- MASK_ALARMS and the cue action MASK replace the room's mask (R128). -/
def State.setMask (s : State) (r : Room) (m : Mask) : State := s.modRoom r fun rm => { rm with mask := m }

/-! ### Contact outputs (R182 to R184) -/

/-- An output takes a state, and what set it is kept (R183, R184). -/
def State.setOutput (s : State) (o : Fin 24) (on : Bool) (by_ : LastSet) : State :=
  { s with outputs := s.outputs.set o.val { s.outputs[o] with on := on, lastSet := by_ } o.isLt }

/-! ### Timers (R165 to R169) -/

/-- Sample periods of one unit (R165). -/
def TimerUnit.periods : TimerUnit → Nat
  | .sample => 1
  | .frame => 2000
  | .second => 48000

/-- The remaining count a timer starts from (R166). -/
def Timer.full (t : Timer) : Nat := t.count * t.unit.periods

/-- A timer starts or restarts with these values; a count of 0 is clamped to 1 (R166, R200). -/
def Timer.start (unit : TimerUnit) (count : Nat) (rep : Bool) (target : Nat) : Timer :=
  let t : Timer := ⟨true, unit, clamp 1 65535 count, rep, some target, 0, false⟩
  { t with remaining := t.full }

/-- Change one timer of a room. -/
def RoomRec.modTimer (rm : RoomRec) (t : Fin 4) (f : Timer → Timer) : RoomRec :=
  { rm with timers := rm.timers.set t.val (f rm.timers[t]) t.isLt }

/-- TIMER_START (R166). -/
def State.timerStart (s : State) (r : Room) (t : Fin 4) (unit : TimerUnit) (count : Nat) (rep : Bool) (target : Nat) :
    State :=
  s.modRoom r fun rm => rm.modTimer t fun _ => Timer.start unit count rep target

/-- TIMER_STOP (R169). -/
def State.timerStop (s : State) (r : Room) (t : Fin 4) : State := s.modRoom r fun rm => rm.modTimer t Timer.stop

/-- The timer's expiry is due: its count has run out in the period in progress (R167). -/
def Timer.due (t : Timer) : Bool := t.running && t.expiring

/-- The timer's next state at its expiry: stopped, or reloaded (R167). -/
def Timer.next (t : Timer) : Timer := if t.rep then { t with remaining := t.full, expiring := false } else t.stop

/-- One sample period of a running timer (R167). The period that brings remaining to 0 is the expiry: until the expiry is taken
the timer runs with remaining 1, so that remaining is above 0 while it runs (R165). -/
def Timer.advance (t : Timer) : Timer :=
  if t.running = false then t
  else if t.remaining ≤ 1 then { t with expiring := true }
  else { t with remaining := t.remaining - 1 }

/-- At the assertion of the supply warning a timer keeps its remaining count; an expiry that has not been taken is put off to
the first period after the release (R173). DEDUCED, assumption 13. -/
def Timer.freeze (t : Timer) : Timer := { t with expiring := false }

/-! ### Actions (R144, R160, R161) -/

/-- The reason with which the cue action GO fails. R160 names WRONG_STATE for GO_LIVE in a room that has entered PROVE, where
R20 answers the request with SEQ_BUSY: each is followed where it speaks. DESIGN CHOICE, assumption 17. -/
def goReason (st : RoomState) (t : GoTarget) (res : Result) : Result :=
  if t = .goLive ∧ st = .prove ∧ res = .seqBusy then .wrongState else res

/-- One action of cue `number` of room `r`: OK when it is performed, else its reason; a failed action changes nothing
(R161). -/
def State.perform (s : State) (r : Room) (number : Nat) : Action → State × Result
  | .setFormat i => s.selectFormat r i
  | .setSource m => (s.handOn r (.source m), .ok)
  | .selectBank n => (s.handOn r (.bank n), .ok)
  | .fade step ms => (s.setGain r step.toNat ms.toNat, .ok)
  | .mute yes => (s.setMute r yes, .ok)
  | .mask kinds blocks => (s.setMask r (Mask.of kinds blocks.toNat), .ok)
  | .contact o on =>
    if s.outputs[o].owner = some r then (s.setOutput o on (.cue r number), .ok) else (s, .notOwner)
  | .go t => let out := s.goJudge r t; (out.1, goReason (s.room r).path.state t out.2)
  | .timerStart t unit count rep target =>
    match below 4 t.toNat with
    | some i => (s.timerStart r i unit count.toNat rep target, .ok)
    | none => (s, .badField)
  | .timerStop t =>
    match below 4 t.toNat with
    | some i => (s.timerStop r i, .ok)
    | none => (s, .badField)

/-- What a firing leaves: the state and the failed actions. -/
structure Fired where
  st : State
  failed : List (Nat × Result)

/-- One action of a firing, by its index (R160). -/
def fireStep (r : Room) (number : Nat) (f : Fired) (a : Nat × Action) : Fired :=
  let out := f.st.perform r number a.2
  ⟨out.1, if out.2 = .ok then f.failed else f.failed ++ [(a.1, out.2)]⟩

/-- The actions of a cue with their indices 1 to 4. -/
def Cue.numbered (c : Cue) : List (Nat × Action) := c.actions.zipIdx.map fun x => (x.2 + 1, x.1)

/-- A cue fires: CUE_FIRED, its actions in order, and CUE_FAILED when any failed (R160, R162). -/
def State.fire (s : State) (r : Room) (c : Cue) (why : Cause) : Fired :=
  let f := c.numbered.foldl (fireStep r c.number) ⟨s.notify r (.cueFired c.number c.trigger why), []⟩
  if f.failed = [] then f else { f with st := f.st.notify r (.cueFailed c.number why f.failed) }

/-- Cues fire one after another, each whole before the next (R163). -/
def State.fireAll (s : State) (r : Room) (l : List (Cue × Cause)) : State :=
  l.foldl (fun s x => (s.fire r x.1 x.2).st) s

/-- A timecode run: the cues not yet fired do not fire once a cue has brought the room into OFF; where a later action of that
cue has taken the room out of OFF again, the run goes on (R163). A run begins outside OFF (R154). -/
def State.fireRun (s : State) (r : Room) (why : Cause) : List Cue → State
  | [] => s
  | c :: cs =>
    let f := s.fire r c why
    if (f.st.room r).path.state = .off then f.st else f.st.fireRun r why cs

/-- Cues may fire: the supply warning is not asserted, and neither the table store's initialisation nor an engine
restart runs (R172, R175). DEDUCED, assumption 12. -/
def State.cuesFire (s : State) : Bool := !s.supply && !s.notReady

/-! ### The cursor on timecode events (R151 to R154) -/

/-- The run of an event: the AT cues from the cursor on whose frame is at most `t`, up to the first above it (R151). -/
def runOf (t : Nat) : List Cue → List Cue
  | [] => []
  | c :: cs =>
    match c.frame? with
    | some f => if f ≤ t then c :: runOf t cs else []
    | none => runOf t cs

/-- The position of the first AT cue at or after position `from_` whose frame satisfies `p`. -/
def firstAtFrom (p : Nat → Bool) (from_ : Nat) (l : List Cue) : Nat := min l.length from_ + firstAt p (l.drop from_)

/-- The cursor moves past the run of `t`, and the run fires (R151). -/
def State.runTo (s : State) (r : Room) (jump : Bool) (t : Nat) : State :=
  let rm := s.room r
  let s1 := s.modRoom r fun rm => { rm with cursor := firstAtFrom (fun f => decide (t < f)) rm.cursor rm.list }
  s1.fireRun r (.timecode jump t) (runOf t (rm.list.drop rm.cursor))

/-- The Cue Engine takes no action on a timecode event of a room in OFF or while no cue fires (R154, R172). -/
def State.takesTimecode (s : State) (r : Room) : Bool := s.cuesFire && decide ((s.room r).path.state ≠ .off)

/-- advance(T) (R151). -/
def State.advanceTo (s : State) (r : Room) (t : Nat) : State := if s.takesTimecode r then s.runTo r false t else s

/-- jump(T): the cursor is placed at the first AT cue whose frame is at least T, and the run of T fires (R152). -/
def State.jumpTo (s : State) (r : Room) (t : Nat) : State :=
  if s.takesTimecode r then
    (s.modRoom r fun rm => { rm with cursor := firstAt (fun f => decide (t ≤ f)) rm.list }).runTo r true t
  else s

/-! ### Alarm hand-overs, contact edges and timers (R156, R157, R167, R168) -/

/-- The cue's ALARM trigger matches a raised condition (R156). -/
def Cue.matchesAlarm (c : Cue) (x : CondId) : Bool :=
  match c.trigger with
  | .alarm k ch =>
    decide (k = x.kind) &&
      (match ch, x with
       | .any, _ => true
       | .ch a, .level b _ => decide (a = b)
       | .room, .rack => true
       | _, _ => false)
  | _ => false

/-- The hand-overs of one room's evaluation are taken as one event (R156): each one's cues are looked up when its run
begins. -/
def State.takeHandover (s : State) (h : Handover) : State :=
  if s.cuesFire then
    h.conds.foldl
      (fun s x => s.fireAll h.room (((s.room h.room).list.filter (·.matchesAlarm x)).map fun c => (c, .alarm x))) s
  else s

/-- The cue's CONTACT trigger matches an edge (R157). -/
def Cue.matchesContact (c : Cue) (i : Fin 16) (e : Edge) : Bool := decide (c.trigger = .contact i e)

/-- An edge is handed to the Cue Engine of a room (R157). -/
def State.takeEdge (s : State) (r : Room) (i : Fin 16) (e : Edge) : State :=
  if s.cuesFire then
    s.fireAll r (((s.room r).list.filter (·.matchesContact i e)).map fun c => (c, .contact i e))
  else s

/-- The cue of that number in a list. -/
def findCue (l : List Cue) (number : Nat) : Option Cue := l.find? fun c => decide (c.number = number)

/-- A timer expires: it takes its next state, and its target fires, or the timer is an orphan and stops (R167, R168). -/
def State.expire (s : State) (r : Room) (t : Fin 4) : State :=
  let tm := (s.room r).timers[t]
  match tm.target with
  | none => s.timerStop r t
  | some n =>
    match findCue (s.room r).list n with
    | some c => ((s.modRoom r fun rm => rm.modTimer t Timer.next).fire r c (.timer t)).st
    | none => (s.timerStop r t).notify r (.timerOrphan t n)

/-! ### Drafts and lists (R142 to R147, R155, R158) -/

/-- The store's used count (R142). DEDUCED, assumption 16. -/
def State.cueUsed (s : State) : Nat :=
  ((List.finRange 12).map fun r => (s.room r).list.length + (s.room r).draft.length).sum

/-- CUE_DRAFT_CLEAR (R145). -/
def State.reqDraftClear (s : State) (r : Room) : Answer :=
  let s1 := s.modRoom r fun rm => { rm with draft := [] }
  s1.accept [.bits 10 s1.cueUsed]

/-- The index of the first entry that R146 refuses with BAD_FIELD. -/
def firstBad (l : List (List Payload)) : Option Nat := l.findIdx? fun e => (Cue.ofWords e).isNone

/-- The index of the first entry whose number is not above the last (R146). -/
def firstDisorder : Option Nat → Nat → List Cue → Option Nat
  | _, _, [] => none
  | last, i, c :: cs =>
    if (match last with | some n => decide (c.number ≤ n) | none => false) = true then some i
    else firstDisorder (some c.number) (i + 1) cs

/-- The number of the last entry of a draft. -/
def lastNumber (l : List Cue) : Option Nat := l.getLast?.map (·.number)

/-- CUE_DRAFT_APPEND: BAD_FIELD, ORDER, STORE_FULL, in that order (R146). -/
def State.reqDraftAppend (s : State) (r : Room) (body : List Payload) : Answer :=
  match entriesOf body with
  | none => s.refuse .malformed
  | some entries =>
    match firstBad entries with
    | some i => s.refuseWith .badField [.bits 5 i]
    | none =>
      let cues := entries.filterMap Cue.ofWords
      let draft := (s.room r).draft
      match firstDisorder (lastNumber draft) 0 cues with
      | some i => s.refuseWith .order [.bits 5 i]
      | none =>
        if Config.cueListMax < draft.length + cues.length ∨ Config.cueStore < s.cueUsed + cues.length then
          s.refuseWith .storeFull [.bits 8 draft.length, .bits 10 (Config.cueStore - s.cueUsed)]
        else
          let s1 := s.modRoom r fun rm => { rm with draft := rm.draft ++ cues }
          s1.accept [.bits 8 (s1.room r).draft.length, .bits 10 s1.cueUsed]

/-- The number of the first AT entry whose frame is less than that of an earlier AT entry (R147). -/
def frameDisorder : Nat → List Cue → Option Nat
  | _, [] => none
  | hi, c :: cs =>
    match c.frame? with
    | some f => if f < hi then some c.number else frameDisorder (max hi f) cs
    | none => frameDisorder hi cs

/-- The draft becomes the list and the cursor is placed (R147, R148). -/
def RoomRec.commitDraft (rm : RoomRec) : RoomRec := { rm with list := rm.draft, draft := [] }.placeCursor

/-- CUE_COMMIT (R147). -/
def State.reqCommit (s : State) (r : Room) : Answer :=
  match frameDisorder 0 (s.room r).draft with
  | some n => s.refuseWith .order [.bits 14 n]
  | none =>
    let s1 := s.modRoom r RoomRec.commitDraft
    s1.accept [.bits 8 (s1.room r).list.length, .bits 10 s1.cueUsed]

/-- CUE_GO: the reply carries the number and the failed actions (R158). -/
def State.reqCueGo (s : State) (r : Room) (originator : BitVec 6) (body : List Payload) : Answer :=
  let n := arg body 0
  if n = 0 ∨ 9999 < n then s.refuse .badField
  else
    match findCue (s.room r).list n with
    | none => s.refuse .noSuchCue
    | some c =>
      let f := s.fire r c (.cueGo originator)
      f.st.accept (.bits 14 n :: failedFields f.failed)

/-- CUE_REWIND: the reply carries the cursor and the last frame (R155). -/
def State.reqRewind (s : State) (r : Room) : Answer :=
  let s1 := s.modRoom r RoomRec.cursorToBase
  s1.accept (.bits 8 (s1.room r).cursor :: Fld.opt 24 (s1.room r).tc.last)

/-- The request TIMER_START: the reply carries remaining (R166). -/
def State.reqTimerStart (s : State) (r : Room) (body : List Payload) : Answer :=
  match below 4 (arg body 0), TimerUnit.ofCode (arg body 1), boolOfCode (arg body 3) with
  | some t, some unit, some rep =>
    if arg body 4 = 0 ∨ 9999 < arg body 4 then s.refuse .badField
    else
      (s.timerStart r t unit (arg body 2) rep (arg body 4)).accept
        [.bits 32 (Timer.start unit (arg body 2) rep (arg body 4)).remaining]
  | _, _, _ => s.refuse .badField

/-- The request TIMER_STOP (R169). -/
def State.reqTimerStop (s : State) (r : Room) (body : List Payload) : Answer :=
  match below 4 (arg body 0) with
  | some t => (s.timerStop r t).accept []
  | none => s.refuse .badField

/-- MASK_ALARMS: a set of kinds and a number of blocks; the reply carries the mask as written (R128). Only bits 3:0 of a
set are looked at (R215), so no set names anything else. -/
def State.reqMask (s : State) (r : Room) (body : List Payload) : Answer :=
  let m := Mask.of (BitVec.ofNat 4 (arg body 0)) (arg body 1)
  (s.setMask r m).accept [.bits 4 m.kinds.toNat, .bits 13 m.remaining]

end Sys2Proof.Machine
end

