-- ==== Sys2Proof/Machine/Lanes.lean ====
section
/-! DEFINITION. Lanes, sources and timecode (02): the check and concealment of lane words, the values of the programme
channels, timecode tracking and its hand-over to the Cue Engine, and SET_SOURCE_MAP. -/

namespace Sys2Proof.Machine

/-! ### Used lanes (R34) -/

/-- A map names a lane, as a programme channel or as the timecode lane (R34). -/
def SourceMap.names (m : SourceMap) (l : Lane) : Bool :=
  decide (m.tc = some l) || (List.finRange 16).any fun c => decide (m.prog[c] = some l)

/-- A lane is used by one of the rooms that `later` does not name: its active map names the lane, whatever the room's state (R34). -/
def State.usedBut (s : State) (later : List Room) (l : Lane) : Bool :=
  (List.finRange 12).any fun r => decide (r ∉ later) && (s.room r).activeMap.names l

/-- A lane is used: the active map of some room names it, whatever the room's state (R34). -/
def State.usesLane (s : State) (l : Lane) : Bool := s.usedBut [] l

/-! ### Lane words (R32 to R36) -/

/-- One lane takes its word of a sample period (R32 to R34, R36). -/
def LaneRec.take (rec : LaneRec) (used : Bool) (w : Word) : LaneRec :=
  { hold := if laneGood w then laneSample w else rec.hold
    mark := rec.mark || laneGood w
    checkErr := if laneCheckError w then rec.checkErr + 1 else rec.checkErr
    usedErr := if used && !laneGood w then rec.usedErr + 1 else rec.usedErr
    concealed := used && !laneGood w }

/-- A room reads the lane's word of the latest frame later in the period: a word that is not good is concealed, and counts on the lane
unless the frame's concealment has been counted (R34). -/
def LaneRec.readLater (rec : LaneRec) (w : Word) : LaneRec :=
  if laneGood w || rec.concealed then rec else { rec with usedErr := rec.usedErr + 1, concealed := true }

/-- The words of a frame that count a check error (R32). -/
def checkErrors (ws : Vector Word 256) : Nat := (List.finRange 256).countP fun l => laneCheckError ws[l]

set_option maxRecDepth 4000 in
/-- All 256 lanes take their words (R31, R32); those that only rooms of `later` use count no concealment until these read them. -/
def State.takeLanes (s : State) (ws : Vector Word 256) (later : List Room) : State :=
  { s with
    lanes := Vector.ofFn fun l => s.lanes[l].take (s.usedBut later l) ws[l]
    checkTotal := s.checkTotal + BitVec.ofNat 32 (checkErrors ws) }

/-- The value of a programme channel in a frame of words `ws`: the lane's sample when its word is good, and its hold value otherwise; 0
when mapped to NONE (R35). -/
def State.laneValue (s : State) (ws : Vector Word 256) : Option Lane → Int
  | some l => if laneGood ws[l] then laneSample ws[l] else s.lanes[l].hold
  | none => 0

/-- The sixteen programme channels of the rooms chosen take their values of the sample period (R35). DEDUCED, assumption 8. -/
def State.takeValues (s : State) (ws : Vector Word 256) (which : Room → Bool) : State :=
  { s with rooms := Vector.ofFn fun r =>
      if which r then { s.room r with prog := Vector.ofFn fun c => s.laneValue ws (s.room r).activeMap.prog[c] } else s.room r }

/-! ### Timecode (R44 to R49) -/

/-- The event a timecode value gives the Cue Engine (R45, R49). -/
inductive TcEvent where
  | advance (t : Nat)
  | same
  | jump (t : Nat)
  deriving DecidableEq, Repr

/-- Classification of a value against the last frame (R45). -/
def classify (last : Option Nat) (t : Nat) : TcEvent :=
  match last with
  | none => .jump t
  | some f => if t = f then .same else if f < t ∧ t ≤ f + 3 then .advance t else .jump t

/-- The record after an advance or a jump (R45). -/
def Timecode.moved (tc : Timecode) (t : Nat) : Timecode :=
  { tc with state := .running, last := some t, still := 0, absence := 0 }

/-- The record after a same event (R45). -/
def Timecode.held (tc : Timecode) : Timecode :=
  match tc.state with
  | .lost => { tc with state := .running, still := 0, absence := 0 }
  | .running =>
    { tc with
      state := if Config.timecodeStill ≤ tc.still + 1 then .stopped else .running
      still := min Config.timecodeStill (tc.still + 1)
      absence := 0 }
  | .stopped => { tc with absence := 0 }
  | .absent => tc

/-- The record after a sample period without a value (R46). -/
def Timecode.missed (tc : Timecode) : Timecode :=
  match tc.state with
  | .absent | .lost => tc
  | .running | .stopped =>
    if Config.timecodeLoss ≤ tc.absence + 1 then { tc with state := .lost, still := 0, absence := Config.timecodeLoss }
    else
      { tc with
        state := if tc.state = .running ∧ Config.timecodeStill ≤ tc.still + 1 then .stopped else tc.state
        still := min Config.timecodeStill (tc.still + 1)
        absence := tc.absence + 1 }

/-- The record after an event (R45). -/
def Timecode.on (tc : Timecode) : TcEvent → Timecode
  | .advance t => tc.moved t
  | .same => tc.held
  | .jump t => tc.moved t

/-- The event is a jump (R48). -/
def TcEvent.isJump : TcEvent → Bool
  | .jump _ => true
  | .advance _ | .same => false

/-- A room's timecode record moves, with a TIMECODE notice at a change of state or a jump (R48). -/
def State.moveTimecode (s : State) (r : Room) (new : Timecode) (jump : Bool) : State :=
  let old := (s.room r).tc
  let s1 := s.modRoom r fun rm => { rm with tc := new }
  if old.state ≠ new.state ∨ jump = true then
    s1.notify r (.timecode old.state new.state old.last new.last jump)
  else s1

/-- A room in a state other than ABSENT takes its timecode of one sample period: a value or none; the event then goes to
the Cue Engine (R44 to R49). -/
def State.takeTimecode (s : State) (r : Room) (v : Option Nat) : State :=
  let tc := (s.room r).tc
  if tc.state = .absent then s
  else
    match v with
    | none => s.moveTimecode r tc.missed false
    | some t =>
      let e := classify tc.last t
      let s1 := s.moveTimecode r (tc.on e) e.isJump
      match e with
      | .advance t => s1.advanceTo r t
      | .jump t => s1.jumpTo r t
      | .same => s1

/-- The timecode value of a room in a frame: the lane's word when it is good (R44). -/
def State.timecodeValue (s : State) (ws : Vector Word 256) (r : Room) : Option Nat :=
  match (s.room r).activeMap.tc with
  | some l => if laneGood ws[l] then some (laneFrame ws[l]) else none
  | none => none

/-- A room takes its timecode of the sample period in progress, which is then marked as taken. -/
def State.takeOfPeriod (s : State) (r : Room) (v : Option Nat) : State :=
  (s.takeTimecode r v).modRoom r fun rm => { rm with tc := { rm.tc with taken := true } }

/-- A room's share of a frame. A period gives a room its timecode once (R44 to R46): where TIMECODE_LOSS, TIMECODE_STILL_EXPIRY or a
frame has taken it already, it is not taken again. DESIGN CHOICE, assumption 3. -/
def State.takeOnce (s : State) (r : Room) (v : Option Nat) : State :=
  if (s.room r).tc.taken then s else s.takeOfPeriod r v

/-- A room that waits reads its words of the period's frame by the map that is active now: the new one where a source change has been
taken first (R41). Its lanes count their concealment, its channels take their values and it takes its timecode (R34, R35, R44). DESIGN
CHOICE, assumption 18. -/
def State.readWords (s : State) (r : Room) : State :=
  if r ∈ s.waiting then
    let s1 := { s with
      waiting := s.waiting.filter fun q => decide (q ≠ r)
      lanes := Vector.ofFn fun l => if (s.room r).activeMap.names l then s.lanes[l].readLater s.words[l] else s.lanes[l] }
    let s2 := s1.takeValues s.words fun q => decide (q = r)
    s2.takeOnce r (s2.timecodeValue s.words r)
  else s

/-- The rooms named that wait read their words of the period's frame, one after another (R1, R41, R49). -/
def State.readAll (s : State) (rooms : List Room) : State := rooms.foldl State.readWords s

/-- Every room that waits reads its words, in the order in which the frame's command named them. -/
def State.takeWaiting (s : State) : State := s.readAll s.waiting

/-- Lane Intake takes the lane words of one sample period: the lanes, the values, then the timecode of each room (R31, R49). The rooms
of `order.later` read theirs when a SAMPLE_PERIOD of the period names them, or else as the period closes or another frame comes. DESIGN
CHOICE, assumption 18. -/
def State.intake (s : State) (ws : Vector Word 256) (order : FrameOrder) : State :=
  let s1 := (s.takeWaiting.takeLanes ws order.later).takeValues ws fun r => decide (r ∉ order.later)
  forRooms order.rooms (fun r s => if r ∈ order.later then s else s.takeOnce r (s.timecodeValue ws r))
    { s1 with waiting := order.later, words := ws }

/-- The 256 words of a missing frame, whose valid markers are no (R31). -/
def missingWords : Vector Word 256 := Vector.replicate 256 0#32

/-- The room's timecode of the period has not been taken, and its absence run stands one short of a loss (R46). -/
def Timecode.lossDue (tc : Timecode) : Bool :=
  decide ((tc.state = .running ∨ tc.state = .stopped) ∧ tc.absence + 1 = Config.timecodeLoss ∧ tc.taken = false)

/-- The room's timecode of the period has not been taken, and its still run stands one short of STOPPED, in a period that gives the
last frame again (R45) or, without a value, completes no loss (R46). -/
def Timecode.stillDue (tc : Timecode) (same : Bool) : Bool :=
  decide (tc.state = .running ∧ tc.still + 1 = Config.timecodeStill ∧ tc.taken = false) &&
    (if same then tc.last.isSome else decide (tc.absence + 1 < Config.timecodeLoss))

/-- The period may give the room this timecode, a value or none: a frame whose words the room still has to read gives it, or the room
waits for none (R44). -/
def State.mayGive (s : State) (r : Room) (v : Option Nat) : Bool := decide (r ∉ s.waiting ∨ s.timecodeValue s.words r = v)

/-- The value that the period of a TIMECODE_STILL_EXPIRY gives: the last frame again (R45), or none (R46). -/
def State.stillValue (s : State) (r : Room) (same : Bool) : Option Nat := if same then (s.room r).tc.last else none

/-- The room's timecode is lost with this period (R46). -/
def State.lossDue (r : Room) (s : State) : Bool := (s.room r).tc.lossDue && s.mayGive r none

/-- The room's timecode has stood still with this period (R45, R46). -/
def State.stillDue (r : Room) (same : Bool) (s : State) : Bool :=
  (s.room r).tc.stillDue same && s.mayGive r (s.stillValue r same)

/-- A row that names a room's timecode of the period takes it: the room reads the frame's words where it waits for them, and otherwise the
row comes ahead of the frame (R46). -/
def State.takeRow (s : State) (r : Room) (v : Option Nat) : State :=
  if r ∈ s.waiting then s.readWords r else s.takeOfPeriod r v

/-! ### SET_SOURCE_MAP (R39) and READ_COUNTS' lanes -/

/-- The map a SET_SOURCE_MAP body gives; nothing when an entry is neither NONE nor a lane (R39). -/
def mapOfBody (body : List Payload) : Option SourceMap :=
  match decodeAll (belowOrNone 256) body 1 16, belowOrNone 256 (arg body 17) with
  | some l, some tc => some ⟨vecOf 16 none l, tc⟩
  | _, _ => none

/-- A map is written; written over the active map it switches the timecode lane (R39, R47). -/
def RoomRec.writeMap (rm : RoomRec) (which : Source) (m : SourceMap) : RoomRec :=
  let rm1 := match which with
    | .main => { rm with main := m }
    | .spare => { rm with spare := m }
  if which = rm.activeSource then { rm1 with tc := rm.tc.switch rm.activeMap.tc m.tc } else rm1

/-- SET_SOURCE_MAP (R39). -/
def State.reqSetSourceMap (s : State) (r : Room) (body : List Payload) : Answer :=
  match Source.ofCode (arg body 0), mapOfBody body with
  | some which, some m =>
    if (s.room r).activeSource = which ∧ (s.room r).path.state ≠ .off then s.refuse .inService
    else (s.modRoom r fun rm => rm.writeMap which m).accept []
  | _, _ => s.refuse .badField

end Sys2Proof.Machine
end

