-- ==== Sys2Proof/Machine/Alarms.lean ====
section
/-! DEFINITION. Meters and alarms (07): the block end, conditions and their phases, the alarm list, masks, acknowledgement,
and SET_ALARM_ENTRY. -/

namespace Sys2Proof.Machine

/-! ### Conditions by name (R123) -/

/-- The condition of a kind of one channel. -/
def ChanConds.get (c : ChanConds) : LevelKind → Cond
  | .silence => c.onSilence
  | .over => c.onOver
  | .clip => c.onClip
  | .loss => c.onLoss

/-- Replace the condition of a kind of one channel. -/
def ChanConds.put (c : ChanConds) (k : LevelKind) (x : Cond) : ChanConds :=
  match k with
  | .silence => { c with onSilence := x }
  | .over => { c with onOver := x }
  | .clip => { c with onClip := x }
  | .loss => { c with onLoss := x }

/-- A condition of a room. -/
def RoomRec.cond (rm : RoomRec) : CondId → Cond
  | .level c k => rm.conds[c].get k
  | .rack => rm.rackCond

/-- Replace a condition of a room. -/
def RoomRec.putCond (rm : RoomRec) (x : CondId) (v : Cond) : RoomRec :=
  match x with
  | .level c k => { rm with conds := rm.conds.set c.val (rm.conds[c].put k v) c.isLt }
  | .rack => { rm with rackCond := v }

/-- The four kinds in the order of evaluation (R126). -/
def levelKinds : List LevelKind := [.silence, .over, .clip, .loss]

/-- The channel conditions of a room in the order of evaluation (R126). -/
def levelConds : List (Chan × LevelKind) :=
  (List.finRange 16).flatMap fun c => levelKinds.map fun k => (c, k)

/-- All 65 conditions of a room (R123, R126). -/
def allConds : List CondId := levelConds.map (fun x => .level x.1 x.2) ++ [.rack]

/-! ### The truth of a condition (R120, R124, R127) -/

/-- Loss of a programme channel: mapped to a lane without a good word in the block (R36). -/
def State.lostChannel (s : State) (rm : RoomRec) (c : Chan) : Bool :=
  match rm.activeMap.prog[c] with
  | some l => !s.lanes[l].mark
  | none => false

/-- LOSS of an output channel, through the output map of the active entry (R120). -/
def State.lostOutput (s : State) (rm : RoomRec) (k : Chan) : Bool :=
  match rm.entry.map[k] with
  | .program c => s.lostChannel rm c
  | .decode _ => s.lostChannel rm 0 || s.lostChannel rm 1
  | .none => false

/-- The kind's bit in a set of kinds (R215). -/
def kindIn (set : BitVec 4) (k : LevelKind) : Bool := set.getLsbD k.code

/-- A channel's condition is true for the block, by its table entry and the meter's last P, C and LOSS (R124). -/
def AlarmCfg.truth (a : AlarmCfg) (m : Meter) (k : LevelKind) : Bool :=
  kindIn a.armed k &&
    match k with
    | .silence => decide (m.lastP < a.silenceFloor)
    | .over => decide (a.overLevel ≤ m.lastP)
    | .clip => decide (a.clipLimit ≤ m.lastC)
    | .loss => m.lastLoss

/-- The hold of a kind (R124). -/
def AlarmCfg.hold (a : AlarmCfg) : LevelKind → Nat
  | .silence => a.silenceHold
  | .over => a.overHold
  | .clip | .loss => 1

/-- The RACK condition is true in HALTED with halt cause RACK_LOST (R127). -/
def RoomRec.rackTrue (rm : RoomRec) : Bool := decide (rm.path.state = .halted ∧ rm.path.halt = .rackLost)

/-! ### Raising and clearing (R131 to R134) -/

/-- The entry is that of the condition. -/
def AlarmEntry.is (e : AlarmEntry) (r : Room) (x : CondId) : Bool := decide (e.room = r ∧ e.cond = x)

/-- An entry raised again (R131). -/
def AlarmEntry.again (e : AlarmEntry) (blk : BitVec 32) (p : Nat) : AlarmEntry :=
  { e with active := true, lastRaised := blk, count := min 255 (e.count + 1), p := p }

/-- A new entry (R131). -/
def AlarmEntry.first (r : Room) (x : CondId) (blk : BitVec 32) (p : Nat) : AlarmEntry := ⟨r, x, true, blk, blk, 1, p⟩

/-- The list after a raising and the entry's raise count, `none` for an unlisted raising (R131). -/
def raiseList (l : List AlarmEntry) (r : Room) (x : CondId) (blk : BitVec 32) (p : Nat) :
    List AlarmEntry × Option Nat :=
  match l.find? (·.is r x) with
  | some e => (l.map (fun e : AlarmEntry => if e.is r x then e.again blk p else e), some (min 255 (e.count + 1)))
  | none =>
    if l.length < Config.alarmListMax then (l ++ [.first r x blk p], some 1)
    else
      match l.findIdx? fun e => !e.active with
      | some i => (l.eraseIdx i ++ [.first r x blk p], some 1)
      | none => (l, none)

/-- A raising: the list, the condition, the unlisted count and the notices (R131, R132, R134). -/
def State.raiseCond (s : State) (r : Room) (x : CondId) (p n : Nat) : State :=
  let out := raiseList s.alarms r x s.blockNumber p
  let s1 := { s with alarms := out.1 }.modRoom r fun rm =>
    { rm.putCond x ⟨.raised, 0, out.2.isNone⟩ with
      unlisted := if out.2.isNone then rm.unlisted + 1 else rm.unlisted }
  let s2 := s1.notify r (.alarmRaised x p n out.2)
  if out.2.isNone then s2.notify r (.alarmListFull x (s2.room r).unlisted) else s2

/-- A clearing: the condition QUIET, its entry CLEARED, and ALARM_CLEARED (R133). -/
def State.clearCond (s : State) (r : Room) (x : CondId) : State :=
  let listed := !((s.room r).cond x).unlisted
  let s1 := { s with alarms := s.alarms.map fun (e : AlarmEntry) => if listed && e.is r x then { e with active := false } else e }
  let s2 := s1.modRoom r fun rm => rm.putCond x .quiet
  s2.notify r (.alarmCleared x listed s.blockNumber)

/-- The condition is judged true with this hold and is raised by it (R125). -/
def Cond.raises (c : Cond) (truth : Bool) (hold : Nat) : Bool :=
  truth && match c.phase with
    | .quiet => decide (hold ≤ 1)
    | .pending => decide (hold ≤ c.run + 1)
    | .raised | .heldAck => false

/-- The condition after a judgement that neither raises nor clears it (R125). -/
def Cond.move (c : Cond) (truth : Bool) : Cond :=
  match c.phase, truth with
  | .quiet, true => ⟨.pending, 1, false⟩
  | .pending, true => { c with run := c.run + 1 }
  | .raised, _ => c
  | .heldAck, true => c
  | _, false => .quiet

/-- A condition is judged; the raisings of the evaluation are gathered for the Cue Engine (R125, R134). -/
def State.judge (r : Room) (x : CondId) (truth : Bool) (hold p n : Nat) (acc : State × List CondId) :
    State × List CondId :=
  let c := (acc.1.room r).cond x
  if c.raises truth hold then (acc.1.raiseCond r x p n, acc.2 ++ [x])
  else if c.phase = .raised ∧ truth = false then (acc.1.clearCond r x, acc.2)
  else (acc.1.modRoom r fun rm => rm.putCond x (c.move truth), acc.2)

/-! ### The block end (R117, R119, R120, R126, R129) -/

/-- The room's channels are evaluated at the block end (R119). -/
def RoomRec.evaluated (rm : RoomRec) : Bool := rm.path.state.runs && !rm.path.enteredInBlock

/-- The kind is held back by the mask (R129). -/
def Mask.holds (m : Mask) (k : LevelKind) : Bool := decide (0 < m.remaining) && kindIn m.kinds k

/-- The mask after a block end at which the room is evaluated (R129). -/
def Mask.countDown (m : Mask) : Mask :=
  if m.remaining ≤ 1 then .none else { m with remaining := m.remaining - 1 }

/-- P, C and LOSS of every channel become last P, C and LOSS (R120). -/
def State.capture (s : State) (r : Room) : State :=
  s.modRoom r fun rm =>
    { rm with
      meters := Vector.ofFn fun k =>
        { rm.meters[k] with
          lastP := rm.meters[k].peak, lastC := rm.meters[k].clips, lastLoss := s.lostOutput rm k }
      lastEval := some s.blockNumber }

/-- One condition of an evaluated channel, unless the mask holds it back (R124, R129). -/
def State.judgeLevel (r : Room) (acc : State × List CondId) (x : Chan × LevelKind) : State × List CondId :=
  let rm := acc.1.room r
  if rm.mask.holds x.2 then acc
  else
    State.judge r (.level x.1 x.2) (rm.alarmTable[x.1].truth rm.meters[x.1] x.2) (rm.alarmTable[x.1].hold x.2)
      rm.meters[x.1].lastP rm.meters[x.1].lastC acc

/-- The evaluation of one room: its channels when it is evaluated, then its RACK condition; the raisings are handed to the
Cue Engine (R119, R126, R127, R134). -/
def State.evaluate (r : Room) (s : State) : State :=
  let ev := (s.room r).evaluated
  let acc := if ev then levelConds.foldl (State.judgeLevel r) (s.capture r, []) else (s, [])
  let out := State.judge r .rack (acc.1.room r).rackTrue 1 0 0 acc
  let s1 := if ev then out.1.modRoom r fun rm => { rm with mask := rm.mask.countDown } else out.1
  if out.2 = [] then s1 else { s1 with handovers := s1.handovers ++ [⟨r, out.2⟩] }

/-- The running peak and the clip count begin again (R52, R118). -/
def Meter.newBlock (m : Meter) : Meter := { m with peak := 0, clips := 0 }

/-- A room begins the next block (R118, R119). -/
def RoomRec.newBlock (rm : RoomRec) : RoomRec :=
  { rm with
    meters := Vector.ofFn fun k => rm.meters[k].newBlock
    path := { rm.path with enteredInBlock := false } }

set_option maxRecDepth 4000 in
/-- The block end (R117): lanes are judged by their marks as they stand, rooms are evaluated, the marks are cleared (R36),
and the block number gains one. -/
def State.blockEnd (s : State) (order : List Room) : State :=
  let s1 := (forRooms order State.evaluate s).mapRooms RoomRec.newBlock
  { s1 with
    lanes := Vector.ofFn fun l => { s1.lanes[l] with mark := false }
    blockNumber := s1.blockNumber + 1
    blockPos := 0
    blockEndDue := false }

/-! ### Hand-overs (R156) -/

/-- The first hand-over of a room that the Cue Engine has not taken. -/
def State.handoverOf (s : State) (r : Room) : Option Handover := s.handovers.find? fun h => decide (h.room = r)

/-- The Cue Engine takes a hand-over, which leaves the list first (R156). -/
def State.nextHandover (s : State) (r : Room) : State :=
  match s.handoverOf r with
  | some h => { s with handovers := s.handovers.eraseP fun x => decide (x.room = r) }.takeHandover h
  | none => s

/-- Every hand-over not yet taken is taken, oldest first. -/
def State.allHandovers (s : State) : State := s.handovers.foldl (fun u h => u.nextHandover h.room) s

/-! ### Acknowledgement (R135, R136) -/

/-- One condition is acknowledged: its entry leaves the list, and a RAISED one becomes HELD_ACK; the entries removed and the
conditions held are counted (R136). -/
def State.ackOne (r : Room) (acc : State × Nat × Nat) (x : CondId) : State × Nat × Nat :=
  let s := acc.1
  let gone := s.alarms.countP (·.is r x)
  let s1 := { s with alarms := s.alarms.filter fun e => !e.is r x }
  if ((s.room r).cond x).phase = .raised then
    (s1.modRoom r fun rm => rm.putCond x ⟨.heldAck, 0, false⟩, acc.2.1 + gone, acc.2.2 + 1)
  else (s1, acc.2.1 + gone, acc.2.2)

/-- ACK_ALARM: the reply carries the entries removed and the conditions made HELD_ACK (R135). -/
def State.reqAck (s : State) (r : Room) (body : List Payload) : Answer :=
  let names :=
    if isNone (arg body 0) then some allConds else (CondId.ofCodes (arg body 0) (arg body 1)).map fun x => [x]
  match names with
  | none => s.refuse .badField
  | some l =>
    let out := l.foldl (State.ackOne r) (s, 0, 0)
    out.1.accept [.bits 6 out.2.1, .bits 7 out.2.2]

/-! ### SET_ALARM_ENTRY (R122) -/

/-- The entry a SET_ALARM_ENTRY body gives, with its values clamped (R122). Only bits 3:0 of the kinds are looked at
(R215). -/
def alarmCfgOf (body : List Payload) : AlarmCfg :=
  ⟨BitVec.ofNat 4 (arg body 1), min Config.maxMagnitude (arg body 2), clamp 1 6000 (arg body 3),
    min Config.maxMagnitude (arg body 4), clamp 1 100 (arg body 5), clamp 1 480 (arg body 6)⟩

/-- The conditions of a channel that are QUIET or PENDING become QUIET (R122). -/
def ChanConds.requiet (c : ChanConds) : ChanConds :=
  ⟨c.onSilence.requiet, c.onOver.requiet, c.onClip.requiet, c.onLoss.requiet⟩

/-- The room with the entries of a set of channels written (R122). -/
def RoomRec.writeAlarms (rm : RoomRec) (set : BitVec 16) (a : AlarmCfg) : RoomRec :=
  { rm with
    alarmTable := Vector.ofFn fun k => if set.getLsbD k.val then a else rm.alarmTable[k]
    conds := Vector.ofFn fun k => if set.getLsbD k.val then rm.conds[k].requiet else rm.conds[k] }

/-- SET_ALARM_ENTRY: the reply carries the clamped values (R122), in the order of R121 and of the request; the table of clamps in
R122 names the over level ahead of the silence hold. DEDUCED, assumption 9. -/
def State.reqSetAlarm (s : State) (r : Room) (body : List Payload) : Answer :=
  let set := BitVec.ofNat 16 (arg body 0)
  let a := alarmCfgOf body
  if set = 0#16 then s.refuse .badField
  else
    (s.modRoom r fun rm => rm.writeAlarms set a).accept
      [.bits 24 a.silenceFloor, .bits 13 a.silenceHold, .bits 24 a.overLevel, .bits 7 a.overHold, .bits 9 a.clipLimit]

end Sys2Proof.Machine
end

