-- ==== Sys2Proof/Machine/Contacts.lean ====
section
/-! DEFINITION. Booth contacts (09): the debounce of the inputs, the ownership table and the outputs' requests. -/

namespace Sys2Proof.Machine

/-- Change one contact input. -/
def State.modInput (s : State) (i : Fin 16) (f : ContactIn → ContactIn) : State :=
  { s with inputs := s.inputs.set i.val (f s.inputs[i]) i.isLt }

/-- The line's sample completes a change run of 960 (R177). -/
def ContactIn.completes (c : ContactIn) (level : Bool) : Bool :=
  decide (level ≠ c.stable ∧ Config.contactDebounce ≤ c.run + 1)

/-- The input after a sample that completes no run (R177). -/
def ContactIn.take (c : ContactIn) (level : Bool) : ContactIn :=
  { c with run := if level = c.stable then 0 else c.run + 1, line := level }

/-- The input after a debounced edge (R177). -/
def ContactIn.flip (c : ContactIn) : ContactIn :=
  { c with stable := !c.stable, run := 0, edges := c.edges + 1, line := !c.stable }

/-- The edge that brings an input to a level (R177). -/
def edgeTo (level : Bool) : Edge := if level then .rise else .fall

/-- CONTACT_IN, naming the owner and carrying its snapshot when the input has one (R178). -/
def State.announceEdge (s : State) (i : Fin 16) (e : Edge) : State :=
  let b : NoticeBody := .contactIn i e s.inputs[i].owner s.inputs[i].edges
  match s.inputs[i].owner with
  | some r => s.notify r b
  | none => s.notifyPart b

/-- A debounced edge: the input's state, the notice, then the hand-over to the owner's Cue Engine (R177, R178). -/
def State.edge (s : State) (i : Fin 16) : State :=
  let e := edgeTo (!s.inputs[i].stable)
  let s1 := (s.modInput i ContactIn.flip).announceEdge i e
  match s1.inputs[i].owner with
  | some r => s1.takeEdge r i e
  | none => s1

/-- The line of an input is sampled in a sample period, unless CONTACT_EDGE has done so already. In the first sample period
after a full reset the stable level is taken from the line, and no edge is made (R176). -/
def State.sample (lines : BitVec 16) (s : State) (i : Fin 16) : State :=
  let level := lines.getLsbD i.val
  if s.inputs[i].sampled then s.modInput i fun c => { c with sampled := false }
  else if s.inputsFresh then s.modInput i fun c => { c with stable := level, run := 0, line := level }
  else if s.inputs[i].completes level then s.edge i
  else s.modInput i fun c => c.take level

/-- All sixteen lines are sampled (R176). The edges of one period are taken in ascending order of the inputs: DESIGN CHOICE,
assumption 5. -/
def State.sampleLines (s : State) (lines : BitVec 16) : State :=
  { (List.finRange 16).foldl (State.sample lines) s with inputsFresh := false }

/-- A period is open, the input's change run stands one short of 960, and its line has not been sampled in the period
(R177). -/
def State.edgeDue (s : State) (i : Fin 16) : Bool :=
  s.periodOpen && decide (s.inputs[i].run + 1 = Config.contactDebounce) && !s.inputs[i].sampled && !s.inputsFresh

/-- The sample that completes the run is taken (R177). -/
def State.takeContactEdge (s : State) (i : Fin 16) : State :=
  (s.edge i).modInput i fun c => { c with sampled := true }

/-! ### Requests (R180, R183) -/

/-- An owner field of a reply. -/
def ownerFields (o : Option Room) : List Fld := Fld.opt 4 (o.map (·.val))

/-- SET_CONTACT_OWNER: the reply carries the old and the new owner (R180). -/
def State.reqSetOwner (s : State) (body : List Payload) : Answer :=
  match belowOrNone 12 (arg body 2) with
  | none => s.refuse .badField
  | some new =>
    if arg body 0 = 0 then
      match below 16 (arg body 1) with
      | some i =>
        (s.modInput i fun c => { c with owner := new }).accept (ownerFields s.inputs[i].owner ++ ownerFields new)
      | none => s.refuse .badField
    else if arg body 0 = 1 then
      match below 24 (arg body 1) with
      | some o =>
        { s with outputs := s.outputs.set o.val { s.outputs[o] with owner := new } o.isLt }.accept
          (ownerFields s.outputs[o].owner ++ ownerFields new)
      | none => s.refuse .badField
    else s.refuse .badField

/-- SET_CONTACT: the reply carries the output's owner and its state after the request (R183). -/
def State.reqSetContact (s : State) (originator : BitVec 6) (body : List Payload) : Answer :=
  match below 24 (arg body 0), boolOfCode (arg body 1) with
  | some o, some on => (s.setOutput o on (.request originator)).accept (ownerFields s.outputs[o].owner ++ [.bool on])
  | _, _ => s.refuse .badField

end Sys2Proof.Machine
end

