-- ==== Sys2Proof/Machine/Period.lean ====
section
/-! DEFINITION. The sample period: the supply warning's assertion and release, what happens as a period opens, the events whose
counts have run out, what the period does at its end, and the two resets. -/

namespace Sys2Proof.Machine

/-! ### The supply warning (R27, R28, R171, R173, R210) -/

/-- The acts of an assertion: the timers freeze, every cursor goes to base, the rooms act, and the SUPPLY notice is raised
before or after their ROOM_STATE notices (R27, R171, R172). -/
def State.supplyActs (s : State) (order : List Room) (supplyFirst : Bool) : State :=
  let s1 := { s with supply := true, supplyDue := false }.mapRooms fun rm =>
    { rm.cursorToBase with timers := Vector.ofFn fun i => rm.timers[i].freeze }
  if supplyFirst then forRooms order State.supplyRoom (s1.notifyPart (.supply true))
  else (forRooms order State.supplyRoom s1).notifyPart (.supply true)

/-- The line is asserted; an assertion of an asserted line is no event. -/
def State.assertSupply (s : State) (order : List Room) (supplyFirst : Bool) : State :=
  if s.supply then s else s.supplyActs order supplyFirst

/-- The assertion that R210 gives to the first sample period after a full reset is taken. -/
def State.dueSupply (s : State) : State := if s.supplyDue then s.supplyActs [] false else s

/-- The line is released: the SUPPLY notice, and every cursor is placed against its last frame (R28, R173). -/
def State.releaseSupply (s : State) : State :=
  if s.supply then ({ s with supply := false }.notifyPart (.supply false)).mapRooms RoomRec.placeCursor else s

/-! ### A sample period opens -/

/-- Events of the period before that have not been taken: the reset's assertion, the block end, and the pilot attempts that no
rack word has ended. -/
def State.overdue (s : State) : State :=
  let s1 := s.dueSupply
  forRooms [] (fun r s => s.attemptTimeout r) (if s1.blockEndDue then s1.blockEnd [] else s1)

/-- A path's counts and ramp in a new sample period: settling (R15), the pilot attempt, or the one that begins now (R18,
R19), and the path ramp (R25). -/
def Path.tick (p : Path) : Path :=
  let p1 :=
    match p.nextAttempt with
    | some pos => { p.beginAttempt pos with seqCount := 1 }
    | none =>
      match p.phase with
      | .settling => { p with seqCount := min Config.settling (p.seqCount + 1) }
      | .proving => { p with seqCount := min Config.pilotAttempt (p.seqCount + 1) }
      | _ => p
  let p2 :=
    match p1.ramp with
    | some r => { p1 with p := r.advance.value, ramp := some r.advance }
    | none => p1
  { p2 with debounceHeld := false, rackTaken := false, pilotSent := none }

/-- A room's counts in a new sample period: path, fade, dip, and the timers while the supply warning is not asserted
(R25, R61, R65, R167, R172). The rack word and the timecode of the new period are still to be taken (R8, R44). -/
def RoomRec.tick (supply : Bool) (rm : RoomRec) : RoomRec :=
  { rm with
    path := rm.path.tick
    gain := rm.gain.advance
    dip := rm.dip.advance
    tc := { rm.tc with taken := false }
    timers := if supply then rm.timers else Vector.ofFn fun i => rm.timers[i].advance }

/-- The Table Store's count (R206). -/
def TableStore.tick : TableStore → TableStore
  | .initialising n => .initialising (n + 1)
  | .ready => .ready

/-- Every count of the part takes one step. -/
def State.tick (s : State) : State :=
  { s.mapRooms (RoomRec.tick s.supply) with
    store := s.store.tick
    restart := s.restart.map (· + 1)
    periodOpen := true
    outFresh := s.outFresh && s.inputsFresh }

/-- The next sample period opens, unless one is open: what is overdue is taken, then every count takes one step.
DESIGN CHOICE, assumption 1. -/
def State.openPeriod (s : State) : State := if s.periodOpen then s else s.overdue.tick

/-- An event that a count brings about is taken when it is due in the period in progress, or in the one that opens with it;
otherwise it has not come about, and nothing changes. DESIGN CHOICE, assumption 3. -/
def State.takeDue (s : State) (due : State → Bool) (act : State → State) : State :=
  if due s.openPeriod then act s.openPeriod else s

/-! ### Events (R15, R25, R61, R67, R167, R206, R208) -/

def State.settlingDue (r : Room) (s : State) : Bool := (s.room r).path.settlingDue
def State.rampDue (r : Room) (s : State) : Bool := (s.room r).path.rampDue
def State.fadeDue (r : Room) (s : State) : Bool := (s.room r).gain.fadeDue
def State.bottomDue (r : Room) (s : State) : Bool := (s.room r).dip.bottomDue
def State.ascentDue (r : Room) (s : State) : Bool := (s.room r).dip.ascentDue

/-- A timer's expiry is due; no timer expires while the supply warning is asserted, the Table Store initialises or an engine
restart runs (R172, R175). -/
def State.timerDue (r : Room) (t : Fin 4) (s : State) : Bool := s.cuesFire && (s.room r).timers[t].due

/-- A pilot attempt that has had its period 1,920 without a pass fails once that period is over: while it is open its rack word may
still pass the attempt (R18). DESIGN CHOICE, assumption 3. -/
def State.takeTimeout (s : State) (r : Room) : State := if s.periodOpen then s else s.attemptTimeout r

/-- The Table Store has its 576 periods (R206). -/
def State.storeDue (s : State) : Bool :=
  match s.store with
  | .initialising n => decide (Config.storeInit ≤ n)
  | .ready => false

/-- The restart has its 96 periods (R208). -/
def State.restartDue (s : State) : Bool :=
  match s.restart with
  | some n => decide (Config.restart ≤ n)
  | none => false

/-- The fade of a room ends (R61). -/
def State.fadeEnd (s : State) (r : Room) : State := s.modRoom r fun rm => { rm with gain := rm.gain.endFade }

/-- The ascent of a room's dip ends (R67). -/
def State.ascentEnd (s : State) (r : Room) : State := s.modRoom r fun rm => { rm with dip := rm.dip.endAscent }

/-- The Table Store becomes READY (R206). -/
def State.storeEnd (s : State) : State := { s with store := .ready }.notifyPart .storeReady

/-- The engine restart ends (R208). -/
def State.restartEnd (s : State) : State := { s with restart := none }.notifyPart .restarted

/-- An event is taken when it is due. -/
def State.force (due : State → Bool) (act : State → State) (s : State) : State := if due s then act s else s

/-- The events of a room that are due and have not been taken in the period. -/
def State.forceRoom (r : Room) (s : State) : State :=
  let s1 := s.force (State.settlingDue r) (·.settlingEnd r)
  let s2 := s1.force (State.rampDue r) (·.rampEnd r)
  let s3 := s2.force (State.fadeDue r) (·.fadeEnd r)
  let s4 := s3.force (State.bottomDue r) (·.dipBottom r)
  let s5 := s4.force (State.ascentDue r) (·.ascentEnd r)
  (List.finRange 4).foldl (fun s t => s.force (State.timerDue r t) (·.expire r t)) s5

/-! ### The sample period's work (R42, R53) -/

/-- The rack trunk frame: room r's output channel k on rack lane 16r + k (R6, R42). -/
def State.formFrame (s : State) : Vector Word 192 :=
  Vector.ofFn fun j =>
    let rm := s.room ⟨j.val / 16, by omega⟩
    laneWordOut (rm.laneSample (s.activeProfile rm) ⟨j.val % 16, by omega⟩)

/-- The chains of the rooms named come ahead of the period's events that are still to come (R58, R81, R101). DESIGN CHOICE,
assumption 18. -/
def State.putAhead (s : State) (rooms : List Room) : State :=
  { s with rooms := Vector.ofFn fun r => if r ∈ rooms then (s.room r).putAhead else s.room r }

/-- The chains of the period run, and the frame leaves the part (R42, R53). -/
def State.runPeriod (s : State) : State :=
  { s.mapRooms (fun rm => rm.runPeriod (s.activeProfile rm) (!s.blockEnded)) with rackFrame := s.formFrame }

/-- The part with its meters as the chains of `v` add to them, and nothing else changed (R56, R118). -/
def State.meteredBy (s v : State) : State :=
  { s with rooms := Vector.ofFn fun r =>
      { s.room r with
        meters := ({ v.room r with meters := (s.room r).meters }.runPeriod (v.activeProfile (v.room r)) (!v.blockEnded)).meters } }

/-- What the period brings about of itself and no row has taken: the words that rooms have still to read, the rooms' count-outs, the
ends of the initialisation and of a restart, and the samples of the contact lines (R15, R25, R49, R61, R67, R167, R176, R206,
R208). -/
def State.takeEvents (s : State) (lines : BitVec 16) (order : List Room) : State :=
  let s1 := forRooms order State.forceRoom s.takeWaiting
  ((s1.force State.storeDue State.storeEnd).force State.restartDue State.restartEnd).sampleLines lines

/-- The period closes: it is one more of its block, and the 480th leaves the block end due; where the block end has been taken in the
period, the block that has begun has none yet (R117). -/
def State.closePeriod (s : State) : State :=
  let pos := if s.blockEnded then 0 else s.blockPos + 1
  { s with periodOpen := false, blockPos := pos, blockEndDue := decide (Config.meterBlock ≤ pos), blockEnded := false }

/-- The block end is taken in the period that completes the block, ahead of events of that period (R117). -/
def State.endBlock (s : State) (order : List Room) : State := { s.blockEnd order with blockEnded := true }

/-- The last period of a block with the block end first: the block takes the period's own t and clips, which the events that follow
decide; it ends with the rooms as they stand; then those events and the chains, whose meters the block already has (R1, R53, R56,
R67, R102, R117, R119, R120, R129). DESIGN CHOICE, assumption 18. -/
def State.endBlockFirst (s : State) (lines : BitVec 16) (order : List Room) : State :=
  (((s.meteredBy (s.takeEvents lines order)).endBlock order).takeEvents lines order).runPeriod

/-- What remains of a period that ends: the hand-overs not yet taken, then what is due and the contact lines, then the chains, and
the rack frame leaves (R53, R156, R176). In the last period of a block `blockFirst` puts the block end ahead of what is due;
otherwise METER_BLOCK_END has taken it in the period already, or it follows the period. DESIGN CHOICE, assumption 18. -/
def State.endPeriod (s : State) (lines : BitVec 16) (order : List Room) (blockFirst : Bool) : State :=
  let s0 := s.allHandovers
  if blockFirst = true ∧ s0.blockPos + 1 = Config.meterBlock then s0.endBlockFirst lines order
  else (s0.takeEvents lines order).runPeriod

/-- SAMPLE_PERIOD: the period opens if it has not, and the chains that are to come ahead of its further events are put there. Where the
period ends with the command, what remains of it is taken and it closes; otherwise the rooms that it names read the words that they have
put off, and the period goes on. No outbound feed trunk frame is formed: that is OUTBOUND_FEED_FRAME's. DESIGN CHOICE, assumptions 14
and 18. -/
def State.samplePeriod (s : State) (lines : BitVec 16) (o : PeriodOrder) : State :=
  let s0 := s.openPeriod.putAhead o.ahead
  if o.closes then (s0.endPeriod lines o.rooms o.blockFirst).closePeriod else s0.readAll o.rooms

/-! ### Resets (R30, R207, R209 and the restart rules of each block) -/

/-- A full reset: every record at its full-reset value, and the supply state taken from the line (R209, R210). The queue of
waiting commands belongs to the outside and stays. DESIGN CHOICE, assumption 6. -/
def State.fullReset (s : State) (line : Bool) : State :=
  { State.reset with supply := line, supplyDue := line, pending := s.pending }

/-- The path fields an engine restart keeps: fitted set, proof limits and policy (R2). -/
def Path.restart (p : Path) : Path :=
  { Path.reset with fitted := p.fitted, proofMin := p.proofMin, proofMax := p.proofMax, policy := p.policy }

/-- The timecode record after an engine restart (R43). -/
def Timecode.restart (lane : Option Lane) : Timecode :=
  match lane with
  | none => ⟨.absent, none, 0, 0, false⟩
  | some _ => ⟨.lost, none, 0, Config.timecodeLoss, false⟩

/-- The gain state after an engine restart (R2, R60). -/
def Gain.restart (gn : Gain) (law : Vector Nat 101) : Gain := ⟨gn.step, false, law[gn.step], none⟩

/-- A room after an engine restart: what no rule re-initialises is kept. -/
def RoomRec.restart (law : Vector Nat 101) (rm : RoomRec) : RoomRec :=
  { rm with
    path := rm.path.restart
    prog := Vector.replicate 16 0
    tc := .restart rm.activeMap.tc
    gain := rm.gain.restart law
    dip := .reset
    decode := .zero
    histA := .zero
    histB := .zero
    demand := 0
    meters := Vector.ofFn fun k => rm.meters[k].newBlock
    conds := Vector.replicate 16 .quiet
    rackCond := .quiet
    mask := .none
    cursor := baseOf rm.list
    timers := Vector.ofFn fun i => rm.timers[i].stop
    ahead := none }

set_option maxRecDepth 4000 in
/-- The engine restart begins: every block re-initialises its running state (R207). -/
def State.restartBegin (s : State) : State :=
  { s.mapRooms (RoomRec.restart s.law) with
    lanes := Vector.ofFn fun l => { s.lanes[l] with hold := 0, mark := false }
    alarms := []
    handovers := []
    outputs := Vector.ofFn fun o => { s.outputs[o] with on := false, lastSet := .none }
    restart := some 0 }

end Sys2Proof.Machine
end

