-- ==== Sys2Proof/Machine/Reads.lean ====
section
/-! DEFINITION. The nine reads: the fields of each reply in the order of R217. A read changes nothing. -/

namespace Sys2Proof.Machine

/-! ### Fields of records -/

/-- Runs of fields, one after another. -/
def joinFields (l : List (List Fld)) : List Fld := l.flatten

/-- A field that may be NONE with several parts: the NONE bit, then the parts, 0 when NONE (R217). -/
def optFields {α : Type} (widths : List Nat) (parts : α → List Fld) : Option α → List Fld
  | some a => .bits 1 0 :: parts a
  | none => .bits 1 1 :: widths.map fun w => .bits w 0

/-- A lane of a source map (R38). -/
def laneFields (l : Option Lane) : List Fld := Fld.opt 8 (l.map (·.val))

def SourceMap.fields (m : SourceMap) : List Fld := m.prog.toList.flatMap laneFields ++ laneFields m.tc

def RackWord.fields (w : RackWord) : List Fld := [.bool w.present, .bool w.wake, .bool w.valid, .bits 23 w.level]

/-- The sequence count while a sequence is in flight; that of a path ramp is its step (R3, R4). -/
def Path.shownCount (p : Path) : Option Nat :=
  if p.phase = .none then none
  else
    match p.ramp with
    | some r => some r.n
    | none => some p.seqCount

def ProofPos.fields (pos : ProofPos) : List Fld := [.bits 4 pos.chan.val, .bits 2 pos.attempt]

/-- The fields of Table 1-1, the last rack word, the sequence count and the proof position (R4). -/
def RoomRec.recordFields (rm : RoomRec) : List Fld :=
  let p := rm.path
  joinFields
    [[.bits 3 p.state.code, .bits 3 p.phase.code, .bool p.proven, .bits 16 p.fitted.toNat, .bits 23 p.proofMin,
       .bits 23 p.proofMax, .bits 1 p.policy.code],
     Sys2Proof.Machine.recordFields p.record,
     [.bits 1 p.halt.code, .bits 17 p.p, .bits 2 rm.activeFormat.val, .bits 1 rm.activeSource.code,
       .bits 1 rm.bankInService.code, .bits 7 rm.gain.step.val, .bool rm.gain.mute, .bits 2 rm.guard.val],
     p.lastRack.fields, Fld.opt 14 p.shownCount, optFields [4, 2] ProofPos.fields p.proofPos]

def Fade.fields (f : Fade) : List Fld := [.bits 17 f.g0, .bits 17 f.g1, .bits 22 f.len, .bits 22 f.n]

/-- The gain state (R60). -/
def Gain.fields (g : Gain) : List Fld := .bits 17 g.g :: optFields [17, 17, 22, 22] Fade.fields g.fade

/-- The dip step is NONE while no step has run (R65). -/
def Dip.shownStep (d : Dip) : Option Nat := if d.stage = .idle ∨ d.step = 0 then none else some d.step

/-- The dip state (R65). An empty slot is sent as NONE, with the NONE bit of R217. DEDUCED, assumption 9. -/
def Dip.fields (d : Dip) : List Fld :=
  joinFields
    [[.bits 2 d.stage.code], Fld.opt 8 d.shownStep, [.bits 17 d.d], Fld.opt 2 (d.fmtSlot.map (·.val)),
     Fld.opt 1 (d.srcSlot.map Source.code), Fld.opt 1 (d.bankSlot.map BankName.code), [.bool d.followOn]]

/-- An output map entry: a NONE bit and the code of R215 in 5 bits, and not the form of the entry followed by the form's fields,
which R217 allows too. DEDUCED, assumption 9. -/
def OutSrc.fields : OutSrc → List Fld
  | .program c => Fld.opt 5 (some c.val)
  | .decode o => Fld.opt 5 (some o.code)
  | .none => [.bits 1 1, .bits 5 0]

def FormatEntry.fields (e : FormatEntry) : List Fld :=
  .bits 1 e.mode.code :: .bits 2 e.profile.val :: e.map.toList.flatMap OutSrc.fields

def DecodeState.fields (d : DecodeState) : List Fld :=
  [.bits 24 d.eL.toNat, .bits 24 d.eR.toNat, .bits 24 d.eS.toNat, .bits 24 d.eD.toNat, .signed 6 d.lr, .signed 6 d.cs]

/-- A timer (R165). -/
def Timer.fields (t : Timer) : List Fld :=
  joinFields
    [[.bool t.running, .bits 2 t.unit.code, .bits 16 t.count, .bool t.rep], Fld.opt 14 t.target, [.bits 32 t.remaining]]

def RoomRec.timerFields (rm : RoomRec) : List Fld := rm.timers.toList.flatMap Timer.fields

/-! ### READ_ROOM and READ_PART -/

/-- READ_ROOM: R4, then the fields that other chapters add, in ascending order of the rules that name them: R38, R43, R60,
R65, R69, R81, R90, R116, R150, R165; of R90's four counts bank A's come first, and of each bank ACTIVE ahead of REJECTED, which
no rule says. DEDUCED, assumption 9. -/
def RoomRec.roomFields (rm : RoomRec) : List Fld :=
  joinFields
    [rm.recordFields, rm.main.fields, rm.spare.fields,
     .bits 2 rm.tc.state.code :: Fld.opt 24 rm.tc.last, rm.gain.fields, rm.dip.fields,
     rm.formats.toList.flatMap FormatEntry.fields, rm.decode.fields,
     [.bits 8 rm.bankA.active, .bits 8 rm.bankA.rejected, .bits 8 rm.bankB.active, .bits 8 rm.bankB.rejected],
     [.bits 8 rm.commitment, .bits 6 rm.decodeTerm, .bits 8 rm.sectionTerm,
       .bits 8 (if rm.path.state.runs then rm.demand else 0)],
     [.bits 8 rm.cursor, .bits 8 (baseOf rm.list), .bits 8 rm.list.length, .bits 8 rm.draft.length], rm.timerFields]

/-- READ_ROOM (R4). -/
def State.reqReadRoom (s : State) (r : Room) : Answer := s.accept (s.room r).roomFields

/-- The fields of READ_PART (R211). -/
def State.partFields (s : State) : List Fld :=
  [.bits 7 82, .bits 13 4630, .bits 1 1, .bits 4 12, .bits 11 Config.budget, .bits 11 s.committedTotal,
    .bits 1 (if s.store = .ready then 1 else 0), .bool s.restart.isSome, .bits 1 (if s.supply then 1 else 0),
    .bits 32 s.blockNumber.toNat, .bits 2 s.mgmt.queue.length, .bits 6 s.mgmt.notices.length]

/-- READ_PART (R211). -/
def State.reqReadPart (s : State) : Answer := s.accept s.partFields

/-! ### READ_COUNTS, READ_METERS, READ_BANK, READ_PROFILE, READ_CONTACTS -/

/-- One lane of READ_COUNTS (R37). -/
def State.countFields (s : State) (l : Lane) : List Fld :=
  [.bits 32 s.lanes[l].checkErr.toNat, .bits 32 s.lanes[l].usedErr.toNat, .bool (s.usesLane l)]

/-- READ_COUNTS (R37, R212). -/
def State.reqReadCounts (s : State) (body : List Payload) : Answer :=
  let first := arg body 0
  let count := arg body 1
  if count = 0 ∨ 28 < count ∨ 256 < first + count then s.refuse .badField
  else
    let lanes := (List.range count).filterMap fun i => below 256 (first + i)
    s.accept (joinFields
      [[.bits 5 count], lanes.flatMap s.countFields,
       [.bits 32 s.checkTotal.toNat, .bits 32 s.mgmt.malformed.toNat, .bits 32 s.mgmt.overflow.toNat,
         .bits 32 s.mgmt.discardTotal.toNat]])

/-- READ_METERS (R120). -/
def State.reqReadMeters (s : State) (r : Room) : Answer :=
  let rm := s.room r
  s.accept (joinFields
    [rm.meters.toList.flatMap fun m => [.bits 24 m.lastP, .bits 13 m.lastC, .bool m.lastLoss],
     Fld.opt 32 (rm.lastEval.map (·.toNat))])

/-- One slot of READ_BANK: five words and the tag (R105, R217). -/
def SlotRec.fields (x : SlotRec) : List Fld :=
  [.coef x.coefs.b0, .coef x.coefs.b1, .coef x.coefs.b2, .coef x.coefs.a1, .coef x.coefs.a2, .bits 2 x.tag.code]

/-- READ_BANK (R105). -/
def State.reqReadBank (s : State) (r : Room) (body : List Payload) : Answer :=
  match BankName.ofCode (arg body 0), below 16 (arg body 1) with
  | some n, some c =>
    let rm := s.room r
    let bk := rm.bank n
    s.accept (joinFields
      [bk.chans[c].slots.toList.flatMap SlotRec.fields,
       [.bits 17 bk.chans[c].trim, .bits 8 bk.active, .bits 8 bk.rejected, .bool (rm.bankInService = n),
         .bool (rm.dip.bankSlot = some n)]])
  | _, _ => s.refuse .badField

/-- READ_PROFILE (R80). -/
def State.reqReadProfile (s : State) (body : List Payload) : Answer :=
  match below 4 (arg body 0), Row.ofCode (arg body 1) with
  | some p, some row =>
    let x := s.profiles[p]
    s.accept (joinFields
      [[.bits 2 x.stateCode, .bits 4 x.loaded.toNat, .bits 24 x.floor, .bits 4 x.attack, .bits 4 x.release],
       (x.row row).toList.flatMap fun c => [.coef c.1, .coef c.2],
       (List.finRange 12).map fun r => .bool ((s.room r).holdsProfile p)])
  | _, _ => s.refuse .badField

/-- A contact level in a reply: HIGH 0, LOW 1, in the order R176 lists them (R217). -/
def levelField (high : Bool) : Fld := .bits 1 (if high then 0 else 1)

/-- What last set an output: the form, then its fields (R182, R217). -/
def LastSet.fields : LastSet → List Fld
  | .none => [.bits 2 0]
  | .request o => [.bits 2 1, .bits 6 o.toNat]
  | .cue r n => [.bits 2 2, .bits 4 r.val, .bits 14 n]

/-- READ_CONTACTS (R186). -/
def State.reqReadContacts (s : State) : Answer :=
  s.accept (joinFields
    [s.inputs.toList.flatMap fun c =>
       joinFields [ownerFields c.owner, [levelField c.stable, .bits 10 c.run, .bits 16 c.edges.toNat]],
     s.outputs.toList.flatMap fun o => joinFields [ownerFields o.owner, [.bool o.on], o.lastSet.fields],
     s.inputs.toList.map fun c => levelField c.line])

/-! ### READ_ALARMS (R141) -/

/-- An entry with its position in the whole list (R130, R141). -/
def entryFields (x : AlarmEntry × Nat) : List Fld :=
  joinFields
    [[.bits 4 x.1.room.val], condFields x.1.cond,
     [.bits 1 (if x.1.active then 0 else 1), .bits 32 x.1.firstRaised.toNat, .bits 32 x.1.lastRaised.toNat,
       .bits 8 x.1.count, .bits 24 x.1.p, .bits 6 x.2]]

/-- A condition in READ_ALARMS; the last bit marks a RAISED one without an entry, and is 0 for a condition that is not RAISED
(R141). DEDUCED, assumption 9. -/
def Cond.fields (c : Cond) : List Fld := [.bits 2 c.phase.code, .bits 13 c.run, .bool c.unlisted]

/-- What READ_ALARMS gives of a named room: mask, unlisted count, conditions (R141). -/
def RoomRec.alarmFields (rm : RoomRec) : List Fld :=
  .bits 4 rm.mask.kinds.toNat :: .bits 13 rm.mask.remaining :: .bits 16 rm.unlisted.toNat ::
    allConds.flatMap fun x => (rm.cond x).fields

/-- READ_ALARMS; `which` is the room, or nothing for NONE (R141). -/
def State.reqReadAlarms (s : State) (which : Option Room) (body : List Payload) : Answer :=
  let first := arg body 0
  let count := arg body 1
  if 47 < first ∨ count = 0 ∨ 8 < count then s.refuse .badField
  else
    let part := s.alarms.zipIdx.filter fun x => match which with | some r => decide (x.1.room = r) | none => true
    let shown := (part.drop first).take count
    s.accept (joinFields
      [[.bits 6 part.length, .bits 4 shown.length], shown.flatMap entryFields,
       match which with | some r => (s.room r).alarmFields | none => []])

/-! ### READ_CUES (R149) -/

/-- An entry with its position: its words on a word boundary, then the position (R149, R217). -/
def cueFields (x : Cue × Nat) : List Fld := x.1.words.map .word ++ [.bits 7 x.2]

/-- READ_CUES (R149). -/
def State.reqReadCues (s : State) (r : Room) (body : List Payload) : Answer :=
  let first := arg body 1
  let count := arg body 2
  if 1 < arg body 0 ∨ 127 < first ∨ count = 0 ∨ 4 < count then s.refuse .badField
  else
    let rm := s.room r
    let shown := ((if arg body 0 = 0 then rm.list else rm.draft).zipIdx.drop first).take count
    s.accept (joinFields
      [[.bits 8 rm.list.length, .bits 8 rm.draft.length, .bits 10 s.cueUsed, .bits 8 rm.cursor,
         .bits 8 (baseOf rm.list)],
       rm.timerFields, .bits 3 shown.length :: shown.flatMap cueFields])

end Sys2Proof.Machine
end

