-- ==== Sys2Proof/Machine/Management.lean ====
section
/-! DEFINITION. In-band management (10): assembly, the request queue, admission, guards, replies and the outbound sender. -/

namespace Sys2Proof.Machine

/-! ### Admission (R195 to R201) -/

/-- Step 1: the kind of a well-formed request; nothing when it is MALFORMED (R196). -/
def Request.formed (q : Request) : Option Kind :=
  if Config.bodyMax < q.body.length then none
  else
    match Kind.ofCode q.kind.toNat with
    | some k => if k.lengthOk q.body then some k else none
    | none => none

/-- The room a request names. -/
def Request.room? (q : Request) : Option Room := below 12 q.room.toNat

/-- Step 2: the room code suits the form (R196); 15 is NONE (R215). -/
def RoomForm.passes : RoomForm → BitVec 4 → Bool
  | .room, c => decide (c.toNat < 12)
  | .roomOrNone, c => decide (c.toNat < 12) || decide (c.toNat = 15)
  | .none, c => decide (c.toNat = 15)

/-- A level passes a requirement "at most n" (R198). -/
def atMost (level : BitVec 2) (n : Nat) : Bool := decide (level.toNat ≤ n)

/-- Step 4: the requirement of the kind's level class (R198). -/
def State.levelPasses (s : State) (k : Kind) (r : Room) (q : Request) : Bool :=
  match k.levelClass with
  | .any => true
  | .roomWrite => atMost q.level 2 && atMost q.level (s.room r).guard.val
  | .partTable => atMost q.level 1
  | .restart => atMost q.level 0
  | .acknowledge => atMost q.level 2
  | .cueGate =>
    match findCue (s.room r).list (arg q.body 0) with
    | some c => atMost q.level c.gate.val
    | none => true
  | .contact =>
    atMost q.level 2 &&
      match (below 24 (arg q.body 0)).bind fun o => s.outputs[o].owner with
      | some owner => atMost q.level (s.room owner).guard.val
      | none => true
  | .guard => atMost q.level (s.room r).guard.val && atMost q.level (arg q.body 0)

/-- Step 5: the writes that pass while the supply warning is asserted (R199). -/
def exempt (k : Kind) (q : Request) : Bool :=
  match k with
  | .ackAlarm => true
  | .go => decide (arg q.body 0 = 0 ∨ arg q.body 0 = 5)
  | _ => false

/-- Steps 2 to 5 in order: the result of the first that refuses (R195). -/
def State.admission (s : State) (k : Kind) (q : Request) : Option Result :=
  if k.form.passes q.room = false then some .badRoom
  else if s.notReady = true ∧ k ≠ .readPart then some .notReady
  else if s.levelPasses k (q.room?.getD 0) q = false then some .denied
  else if s.supply = true ∧ k.isRead = false ∧ exempt k q = false then some .supplyLow
  else none

/-- SET_GUARD: the reply carries the old and the new guard (R201). -/
def State.reqSetGuard (s : State) (r : Room) (body : List Payload) : Answer :=
  match below 4 (arg body 0) with
  | some new => (s.modRoom r fun rm => { rm with guard := new }).accept [.bits 2 (s.room r).guard.val, .bits 2 new.val]
  | none => s.refuse .badField

/-- ENGINE_RESTART: its reply is issued, and the restart begins (R207). -/
def State.reqRestart (s : State) : Answer := s.restartBegin.accept []

/-- Step 6: the rule of the kind (Table 10-1). -/
def State.serve (s : State) (k : Kind) (q : Request) : Answer :=
  let r := q.room?.getD 0
  match k with
  | .readPart => s.reqReadPart
  | .readRoom => s.reqReadRoom r
  | .readCounts => s.reqReadCounts q.body
  | .readMeters => s.reqReadMeters r
  | .readAlarms => s.reqReadAlarms q.room? q.body
  | .readCues => s.reqReadCues r q.body
  | .readBank => s.reqReadBank r q.body
  | .readProfile => s.reqReadProfile q.body
  | .readContacts => s.reqReadContacts
  | .go => s.reqGo r q.body
  | .setRoom => s.reqSetRoom r q.body
  | .setGuard => s.reqSetGuard r q.body
  | .setSourceMap => s.reqSetSourceMap r q.body
  | .selectSource => s.reqSelectSource r q.body
  | .setFormatEntry => s.reqSetFormatEntry r q.body
  | .selectFormat => s.reqSelectFormat r q.body
  | .clearProfile => s.reqClearProfile q.body
  | .loadProfileRow => s.reqLoadProfileRow q.body
  | .setProfileParams => s.reqSetProfileParams q.body
  | .loadFaderLaw => s.loadFaderLaw q.body
  | .setGain => s.reqSetGain r q.body
  | .setMute => s.reqSetMute r q.body
  | .loadSections => s.reqLoadSections r q.body
  | .setTrims => s.reqSetTrims r q.body
  | .clearBank => s.reqClearBank r q.body
  | .copyBank => s.reqCopyBank r q.body
  | .selectBank => s.reqSelectBank r q.body
  | .setAlarmEntry => s.reqSetAlarm r q.body
  | .ackAlarm => s.reqAck r q.body
  | .maskAlarms => s.reqMask r q.body
  | .cueDraftClear => s.reqDraftClear r
  | .cueDraftAppend => s.reqDraftAppend r q.body
  | .cueCommit => s.reqCommit r
  | .cueGo => s.reqCueGo r q.originator q.body
  | .cueRewind => s.reqRewind r
  | .timerStart => s.reqTimerStart r q.body
  | .timerStop => s.reqTimerStop r q.body
  | .setContactOwner => s.reqSetOwner q.body
  | .setContact => s.reqSetContact q.originator q.body
  | .engineRestart => s.reqRestart

/-- A request that is taken is judged by the six steps, and performed when it passes them (R195). -/
def State.answer (s : State) (q : Request) : Answer :=
  match q.formed with
  | none => s.refuse .malformed
  | some k =>
    match s.admission k q with
    | some res => s.refuse res
    | none => s.serve k q

/-! ### The request queue (R190 to R193) -/

/-- The reply to a request (R202). -/
def Request.reply (q : Request) (a : Answer) : Reply := ⟨q.originator, q.kind, a.2.1, q.tag, a.2.2⟩

/-- A request is judged, and its one reply is issued into the reply holder (R193). -/
def State.perform1 (s : State) (q : Request) : State :=
  let a := s.answer q
  { a.1 with mgmt := { a.1.mgmt with holder := some (q.reply a) } }

/-- The head request is taken while the reply holder is empty (R193). -/
def State.takeHead (s : State) : State :=
  match s.mgmt.holder, s.mgmt.queue with
  | none, q :: rest => { s with mgmt := { s.mgmt with queue := rest } }.perform1 q
  | _, _ => s

/-- A request completes: it joins the tail and the head may be taken, or the queue is full and it is discarded (R192,
R193). -/
def State.complete (s : State) (q : Request) : State :=
  if s.mgmt.queue.length < Config.queueMax then
    { s with mgmt := { s.mgmt with queue := s.mgmt.queue ++ [q] } }.takeHead
  else { s with mgmt := { s.mgmt with overflow := s.mgmt.overflow + 1 } }.notifyPart (.queueOverflow q)

/-! ### Assembly (R187 to R189, R215) -/

/-- The malformed counter gains one and the assembly is IDLE (R189). -/
def State.discardAssembly (s : State) : State :=
  { s with mgmt := { s.mgmt with asm := .idle, malformed := s.mgmt.malformed + 1 } }

/-- An assembly that is not IDLE is discarded (R189). -/
def State.breakAssembly (s : State) : State := if s.mgmt.asm.stage = .idle then s else s.discardAssembly

/-- The assembly a START word begins (R188, R215). -/
def Assembly.ofStart (p : Payload) : Assembly :=
  { Assembly.idle with
    stage := .awaitKind, originator := p.extractLsb' 0 6, level := p.extractLsb' 6 2,
    declared := (p.extractLsb' 8 7).toNat }

/-- The kind word is taken (R188, R215). -/
def Assembly.takeKind (a : Assembly) (p : Payload) : Assembly :=
  { a with stage := .body, tag := p.extractLsb' 0 16, room := p.extractLsb' 16 4, kind := p.extractLsb' 20 6 }

/-- The request an assembly becomes (R188). -/
def Assembly.request (a : Assembly) : Request := ⟨a.originator, a.level, a.kind, a.room, a.tag, a.body⟩

/-- The assembly stands as `a`, and completes when its body holds the declared length (R188). -/
def State.assembled (s : State) (a : Assembly) : State :=
  if a.body.length = a.declared then { s with mgmt := { s.mgmt with asm := .idle } }.complete a.request
  else { s with mgmt := { s.mgmt with asm := a } }

/-- One inbound slot word (R188, R189). -/
def State.takeWord (s : State) : SlotWord → State
  | .empty => s.breakAssembly
  | .corrupt => s.discardAssembly
  | .start p =>
    let s1 := s.breakAssembly
    { s1 with mgmt := { s1.mgmt with asm := .ofStart p } }
  | .data p =>
    match s.mgmt.asm.stage with
    | .idle => s.discardAssembly
    | .awaitKind => s.assembled (s.mgmt.asm.takeKind p)
    | .body => s.assembled { s.mgmt.asm with body := s.mgmt.asm.body ++ [p] }

/-- The four inbound slots of a frame, in slot order (R31, R187). -/
def State.takeSlots (s : State) (slots : Vector Word 4) : State :=
  (List.finRange 4).foldl (fun s i => s.takeWord (.ofWord slots[i])) s

/-- A whole booth message arrives in the sample period in progress, or in the one that opens with it: its START word ends an
assembly in progress, and the message completes (R188, R189). DEDUCED, assumption 7; DESIGN CHOICE, assumption 1. -/
def State.submit (s : State) (h : Header) (kind : BitVec 6) (body : List Payload) : State :=
  s.openPeriod.breakAssembly.complete ⟨h.originator, h.level, kind, h.room, h.tag, body⟩

/-! ### The outbound sender (R191, R203) -/

/-- The message chosen next: the reply in the holder, else the oldest notice, which leaves the queue (R203). -/
def State.choose (s : State) : State :=
  match s.mgmt.holder, s.mgmt.notices with
  | some m, _ => { s with mgmt := { s.mgmt with sending := some ⟨true, m.message⟩ } }
  | none, n :: rest => { s with mgmt := { s.mgmt with notices := rest, sending := some ⟨false, n.message⟩ } }
  | none, [] => s

/-- After the last word the sender is idle; the holder of a reply empties, and the next request may be taken (R193,
R203). -/
def State.finish (s : State) (isReply : Bool) : State :=
  let s1 := { s with mgmt := { s.mgmt with sending := none } }
  if isReply then { s1 with mgmt := { s1.mgmt with holder := none } }.takeHead else s1

/-- The next word of the message in hand (R203). -/
def State.sendNext (s : State) : State × Option OutWord :=
  match s.mgmt.sending with
  | some ⟨isReply, w :: rest⟩ =>
    if rest = [] then (s.finish isReply, some w)
    else ({ s with mgmt := { s.mgmt with sending := some ⟨isReply, rest⟩ } }, some w)
  | some ⟨_, []⟩ => (s, none)
  | none => (s, none)

/-- One outbound slot: the sender, when idle, chooses, and sends one word or EMPTY (R203). -/
def State.fillSlot (s : State) : State × Option OutWord := if s.mgmt.sending = none then s.choose.sendNext else s.sendNext

/-- A slot word as it leaves: form 1 START, 2 DATA, 0 EMPTY (R214). -/
def outWord (hold : Bool) : Option OutWord → Word
  | some (true, p) => slotWordOut 1 hold p
  | some (false, p) => slotWordOut 2 hold p
  | none => slotWordOut 0 hold 0

/-- The hold mark: the request queue holds four as the frame is formed (R191). -/
def State.holdMark (s : State) : Bool := decide (s.mgmt.queue.length = Config.queueMax)

/-- The four outbound slots of a frame, with one hold mark for all of them (R191, R203). -/
def State.fillFrame (s : State) : State :=
  let hold := s.holdMark
  let o0 := s.fillSlot
  let o1 := o0.1.fillSlot
  let o2 := o1.1.fillSlot
  let o3 := o2.1.fillSlot
  { o3.1 with outFrame := #v[outWord hold o0.2, outWord hold o1.2, outWord hold o2.2, outWord hold o3.2] }

/-- An outbound frame; that of the first sample period after a full reset carries EMPTY words with hold mark no (R209). -/
def State.sendFrame (s : State) : State :=
  if s.outFresh then { s with outFrame := Vector.replicate 4 (outWord false none) } else s.fillFrame

/-! ### Inbound frames (R31) -/

/-- An inbound feed trunk frame: the sample period opens, the lanes and the timecode are taken, then the slots. -/
def State.feedFrame (s : State) (ws : Vector Word 256) (slots : Vector Word 4) (order : FrameOrder) : State :=
  (s.openPeriod.intake ws order).takeSlots slots

/-- A sample period without a frame: every lane invalid, and a break in the run of slots (R31, R187). -/
def State.missingFrame (s : State) (order : FrameOrder) : State :=
  (s.openPeriod.intake missingWords order).breakAssembly

end Sys2Proof.Machine
end

