-- ==== Sys2Proof/Machine/Commands.lean ====
section
/-! DEFINITION. The meaning of every command: one definition for each row of spec/opcode_table.json. A request row is the
arrival of its whole booth message, which joins the request queue and is taken, judged and answered by R193 and R195. -/

namespace Sys2Proof.Machine

/-! ### Events named by the word or count that brings them about -/

/-- The room's rack word of the period has not been taken, and this one completes its debounce run (R16). -/
def State.debounceDue (r : Room) (w : RackWord) (s : State) : Bool :=
  let p := (s.room r).path
  decide (p.rackTaken = false ∧ p.state = .listen ∧ p.phase = .debouncing ∧ p.debounceHeld = false ∧ w.present = true ∧
    Config.debounce ≤ p.seqCount + 1)

/-- The states in which presence is counted for a rack loss (R9). -/
def RoomState.observed : RoomState → Bool
  | .ready | .prove | .live | .parked => true
  | .off | .listen | .halted => false

/-- The room's rack word of the period has not been taken, and this one completes a rack loss (R9). -/
def State.rackLossDue (r : Room) (w : RackWord) (s : State) : Bool :=
  !(s.room r).path.rackTaken && (s.room r).path.state.observed && (s.room r).path.completesLoss w.present

/-- A format change waits for an event that is due in the period: the bottom of the room's dip, or the end of a ramp with which it leaves
LIVE (R67, R68). It is in force for the period's chains (R74). -/
def RoomRec.formatDue (rm : RoomRec) : Bool :=
  rm.dip.fmtSlot.isSome && (rm.dip.bottomDue || (rm.path.rampDue && decide (rm.path.phase ≠ .rampingIn)))

/-- The block end may be taken in the open period that completes the block: of every room whose chains run, these come ahead of it, with
the format entry that the period's events put in force (R53, R74, R117, R118). -/
def State.blockReady (s : State) : Bool :=
  s.periodOpen && decide (s.blockPos + 1 = Config.meterBlock) &&
    (List.finRange 12).all fun r => !(s.room r).path.state.runs || ((s.room r).ahead.isSome && !(s.room r).formatDue)

/-- The block end in the open period that completes the block: the block takes the t and the clips of the chains that come ahead of it
(R52, R56, R118). -/
def State.earlyBlockEnd (s : State) (order : List Room) : State :=
  (s.meteredBy (s.takeValues s.words fun r => decide (r ∈ s.waiting))).endBlock order

/-- The block end is taken when the block has its 480 periods, or in the last of them once its chains come ahead of it (R117). DESIGN
CHOICE, assumption 18. -/
def State.takeBlockEnd (s : State) (order : List Room) : State :=
  if s.blockEndDue then s.blockEnd order else if s.blockReady then s.earlyBlockEnd order else s

/-! ### One meaning for each command -/

/-- FULL_RESET. Every record takes its full-reset value and the queues are emptied; an asserted SUPPLY WARNING line is taken over (R30, R209, R210). -/
def execFullReset (supplyLine : Bool) (s : State) : Host.Outcome State Fault Refusal :=
  .next (s.fullReset supplyLine)

/-- SUPPLY_WARNING_ASSERTED. The supply warning is asserted (R27, R171). -/
def execSupplyWarningAsserted (order : List Room) (supplyFirst : Bool) (s : State) : Host.Outcome State Fault Refusal :=
  .next (s.openPeriod.assertSupply order supplyFirst)

/-- SUPPLY_WARNING_RELEASED. The supply warning is released (R28, R173). -/
def execSupplyWarningReleased (s : State) : Host.Outcome State Fault Refusal :=
  .next s.openPeriod.releaseSupply

/-- FEED_TRUNK_FRAME. An inbound feed trunk frame is taken (R31). -/
def execFeedTrunkFrame (lanes : Vector Word 256) (slots : Vector Word 4) (order : FrameOrder) (s : State) : Host.Outcome State Fault Refusal :=
  .next (s.feedFrame lanes slots order)

/-- MISSING_FEED_FRAME. A sample period without a feed trunk frame (R31). -/
def execMissingFeedFrame (order : FrameOrder) (s : State) : Host.Outcome State Fault Refusal :=
  .next (s.missingFrame order)

/-- RACK_WORD. A room's rack word is taken (R8). -/
def execRackWord (r : Room) (w : Option Word) (s : State) : Host.Outcome State Fault Refusal :=
  .next (s.openPeriod.takeRack r (RackWord.ofFrame w))

/-- SAMPLE_PERIOD. One sample period runs to its end, or only what is to come ahead of its further events is taken (R1, R41, R53, R58). -/
def execSamplePeriod (lines : BitVec 16) (order : PeriodOrder) (s : State) : Host.Outcome State Fault Refusal :=
  .next (s.samplePeriod lines order)

/-- OUTBOUND_FEED_FRAME. The outbound sender fills the four slots of a frame (R203). Each command forms one outbound frame and no
other command forms any: that a sample period has one and only one of them (R187) is for the sequence of commands to keep, and a
period without one, or with a second, is not ruled out. DESIGN CHOICE, assumption 14. -/
def execOutboundFeedFrame (s : State) : Host.Outcome State Fault Refusal :=
  .next s.openPeriod.sendFrame

/-- BOOTH_MESSAGE. A booth message completes its assembly (R188). -/
def execBoothMessage (h : Header) (kind : BitVec 6) (body : List Payload) (s : State) : Host.Outcome State Fault Refusal :=
  .next (s.submit h kind body)

/-- SETTLING_END. The settling count has reached 4,800 (R15). -/
def execSettlingEnd (r : Room) (s : State) : Host.Outcome State Fault Refusal :=
  .next (s.takeDue (State.settlingDue r) (·.settlingEnd r))

/-- DEBOUNCE_COMPLETE. The rack word that completes the debounce run is taken (R16). -/
def execDebounceComplete (r : Room) (w : Word) (s : State) : Host.Outcome State Fault Refusal :=
  .next (s.takeDue (State.debounceDue r (RackWord.ofWord w)) (·.takeRack r (RackWord.ofWord w)))

/-- RACK_LOSS. The rack word that completes a rack loss is taken (R9). -/
def execRackLoss (r : Room) (w : Option Word) (s : State) : Host.Outcome State Fault Refusal :=
  .next (s.takeDue (State.rackLossDue r (RackWord.ofFrame w)) (·.takeRack r (RackWord.ofFrame w)))

/-- PILOT_ATTEMPT_TIMEOUT. A pilot attempt fails in its period 1,920, once no rack word of that period can pass it (R18). -/
def execPilotAttemptTimeout (r : Room) (s : State) : Host.Outcome State Fault Refusal :=
  .next (s.takeTimeout r)

/-- PATH_RAMP_END. A path ramp ends (R25). -/
def execPathRampEnd (r : Room) (s : State) : Host.Outcome State Fault Refusal :=
  .next (s.takeDue (State.rampDue r) (·.rampEnd r))

/-- FADE_END. A fade ends (R61). -/
def execFadeEnd (r : Room) (s : State) : Host.Outcome State Fault Refusal :=
  .next (s.takeDue (State.fadeDue r) (·.fadeEnd r))

/-- DIP_BOTTOM. The bottom of a dip (R67). -/
def execDipBottom (r : Room) (s : State) : Host.Outcome State Fault Refusal :=
  .next (s.takeDue (State.bottomDue r) (·.dipBottom r))

/-- DIP_ASCENT_END. The end of a dip's ascent (R67). -/
def execDipAscentEnd (r : Room) (s : State) : Host.Outcome State Fault Refusal :=
  .next (s.takeDue (State.ascentDue r) (·.ascentEnd r))

/-- TIMECODE_LOSS. A room's timecode is lost, ahead of the frame or of the room's reading of it (R46). -/
def execTimecodeLoss (r : Room) (s : State) : Host.Outcome State Fault Refusal :=
  .next (s.takeDue (State.lossDue r) (·.takeRow r none))

/-- TIMECODE_STILL_EXPIRY. A room's timecode has stood still for 6,000 periods, ahead of the frame or of the room's reading of it (R45,
R46). -/
def execTimecodeStillExpiry (r : Room) (same : Bool) (s : State) : Host.Outcome State Fault Refusal :=
  .next (s.takeDue (State.stillDue r same) fun t => t.takeRow r (t.stillValue r same))

/-- METER_BLOCK_END. A meter block ends (R117). -/
def execMeterBlockEnd (order : List Room) (s : State) : Host.Outcome State Fault Refusal :=
  .next (s.takeBlockEnd order)

/-- ALARM_HANDOVER. The Cue Engine takes the raisings of one room (R156). -/
def execAlarmHandover (r : Room) (s : State) : Host.Outcome State Fault Refusal :=
  .next (s.takeDue (fun t => (t.handoverOf r).isSome) (·.nextHandover r))

/-- TIMER_EXPIRY. A timer expires (R167). -/
def execTimerExpiry (r : Room) (t : Fin 4) (s : State) : Host.Outcome State Fault Refusal :=
  .next (s.takeDue (State.timerDue r t) (·.expire r t))

/-- CONTACT_EDGE. A contact input makes a debounced edge (R177). -/
def execContactEdge (i : Fin 16) (s : State) : Host.Outcome State Fault Refusal :=
  .next (s.takeDue (·.edgeDue i) (·.takeContactEdge i))

/-- TABLE_STORE_INIT_END. The Table Store becomes READY (R206). -/
def execTableStoreInitEnd (s : State) : Host.Outcome State Fault Refusal :=
  .next (s.takeDue State.storeDue State.storeEnd)

/-- RESTART_END. The engine restart ends (R208). -/
def execRestartEnd (s : State) : Host.Outcome State Fault Refusal :=
  .next (s.takeDue State.restartDue State.restartEnd)

/-- READ_PART. The request READ_PART arrives (R211). -/
def execReadPart (h : Header) (body : List Payload) (s : State) : Host.Outcome State Fault Refusal :=
  .next (s.submit h Kind.readPart.code body)

/-- READ_ROOM. The request READ_ROOM arrives (R4). -/
def execReadRoom (h : Header) (body : List Payload) (s : State) : Host.Outcome State Fault Refusal :=
  .next (s.submit h Kind.readRoom.code body)

/-- READ_COUNTS. The request READ_COUNTS arrives (R37). -/
def execReadCounts (h : Header) (body : List Payload) (s : State) : Host.Outcome State Fault Refusal :=
  .next (s.submit h Kind.readCounts.code body)

/-- READ_METERS. The request READ_METERS arrives (R120). -/
def execReadMeters (h : Header) (body : List Payload) (s : State) : Host.Outcome State Fault Refusal :=
  .next (s.submit h Kind.readMeters.code body)

/-- READ_ALARMS. The request READ_ALARMS arrives (R141). -/
def execReadAlarms (h : Header) (body : List Payload) (s : State) : Host.Outcome State Fault Refusal :=
  .next (s.submit h Kind.readAlarms.code body)

/-- READ_CUES. The request READ_CUES arrives (R149). -/
def execReadCues (h : Header) (body : List Payload) (s : State) : Host.Outcome State Fault Refusal :=
  .next (s.submit h Kind.readCues.code body)

/-- READ_BANK. The request READ_BANK arrives (R105). -/
def execReadBank (h : Header) (body : List Payload) (s : State) : Host.Outcome State Fault Refusal :=
  .next (s.submit h Kind.readBank.code body)

/-- READ_PROFILE. The request READ_PROFILE arrives (R80). -/
def execReadProfile (h : Header) (body : List Payload) (s : State) : Host.Outcome State Fault Refusal :=
  .next (s.submit h Kind.readProfile.code body)

/-- READ_CONTACTS. The request READ_CONTACTS arrives (R186). -/
def execReadContacts (h : Header) (body : List Payload) (s : State) : Host.Outcome State Fault Refusal :=
  .next (s.submit h Kind.readContacts.code body)

/-- GO. The request GO arrives (R14). -/
def execGo (h : Header) (body : List Payload) (s : State) : Host.Outcome State Fault Refusal :=
  .next (s.submit h Kind.go.code body)

/-- SET_ROOM. The request SET_ROOM arrives (R29). -/
def execSetRoom (h : Header) (body : List Payload) (s : State) : Host.Outcome State Fault Refusal :=
  .next (s.submit h Kind.setRoom.code body)

/-- SET_GUARD. The request SET_GUARD arrives (R201). -/
def execSetGuard (h : Header) (body : List Payload) (s : State) : Host.Outcome State Fault Refusal :=
  .next (s.submit h Kind.setGuard.code body)

/-- SET_SOURCE_MAP. The request SET_SOURCE_MAP arrives (R39). -/
def execSetSourceMap (h : Header) (body : List Payload) (s : State) : Host.Outcome State Fault Refusal :=
  .next (s.submit h Kind.setSourceMap.code body)

/-- SELECT_SOURCE. The request SELECT_SOURCE arrives (R40). -/
def execSelectSource (h : Header) (body : List Payload) (s : State) : Host.Outcome State Fault Refusal :=
  .next (s.submit h Kind.selectSource.code body)

/-- SET_FORMAT_ENTRY. The request SET_FORMAT_ENTRY arrives (R71). -/
def execSetFormatEntry (h : Header) (body : List Payload) (s : State) : Host.Outcome State Fault Refusal :=
  .next (s.submit h Kind.setFormatEntry.code body)

/-- SELECT_FORMAT. The request SELECT_FORMAT arrives (R73). -/
def execSelectFormat (h : Header) (body : List Payload) (s : State) : Host.Outcome State Fault Refusal :=
  .next (s.submit h Kind.selectFormat.code body)

/-- CLEAR_PROFILE. The request CLEAR_PROFILE arrives (R76). -/
def execClearProfile (h : Header) (body : List Payload) (s : State) : Host.Outcome State Fault Refusal :=
  .next (s.submit h Kind.clearProfile.code body)

/-- LOAD_PROFILE_ROW. The request LOAD_PROFILE_ROW arrives (R77). -/
def execLoadProfileRow (h : Header) (body : List Payload) (s : State) : Host.Outcome State Fault Refusal :=
  .next (s.submit h Kind.loadProfileRow.code body)

/-- SET_PROFILE_PARAMS. The request SET_PROFILE_PARAMS arrives (R78). -/
def execSetProfileParams (h : Header) (body : List Payload) (s : State) : Host.Outcome State Fault Refusal :=
  .next (s.submit h Kind.setProfileParams.code body)

/-- LOAD_FADER_LAW. The request LOAD_FADER_LAW arrives (R59). -/
def execLoadFaderLaw (h : Header) (body : List Payload) (s : State) : Host.Outcome State Fault Refusal :=
  .next (s.submit h Kind.loadFaderLaw.code body)

/-- SET_GAIN. The request SET_GAIN arrives (R62). -/
def execSetGain (h : Header) (body : List Payload) (s : State) : Host.Outcome State Fault Refusal :=
  .next (s.submit h Kind.setGain.code body)

/-- SET_MUTE. The request SET_MUTE arrives (R63). -/
def execSetMute (h : Header) (body : List Payload) (s : State) : Host.Outcome State Fault Refusal :=
  .next (s.submit h Kind.setMute.code body)

/-- LOAD_SECTIONS. The request LOAD_SECTIONS arrives (R93). -/
def execLoadSections (h : Header) (body : List Payload) (s : State) : Host.Outcome State Fault Refusal :=
  .next (s.submit h Kind.loadSections.code body)

/-- SET_TRIMS. The request SET_TRIMS arrives (R95). -/
def execSetTrims (h : Header) (body : List Payload) (s : State) : Host.Outcome State Fault Refusal :=
  .next (s.submit h Kind.setTrims.code body)

/-- CLEAR_BANK. The request CLEAR_BANK arrives (R96). -/
def execClearBank (h : Header) (body : List Payload) (s : State) : Host.Outcome State Fault Refusal :=
  .next (s.submit h Kind.clearBank.code body)

/-- COPY_BANK. The request COPY_BANK arrives (R97). -/
def execCopyBank (h : Header) (body : List Payload) (s : State) : Host.Outcome State Fault Refusal :=
  .next (s.submit h Kind.copyBank.code body)

/-- SELECT_BANK. The request SELECT_BANK arrives (R100). -/
def execSelectBank (h : Header) (body : List Payload) (s : State) : Host.Outcome State Fault Refusal :=
  .next (s.submit h Kind.selectBank.code body)

/-- SET_ALARM_ENTRY. The request SET_ALARM_ENTRY arrives (R122). -/
def execSetAlarmEntry (h : Header) (body : List Payload) (s : State) : Host.Outcome State Fault Refusal :=
  .next (s.submit h Kind.setAlarmEntry.code body)

/-- ACK_ALARM. The request ACK_ALARM arrives (R135). -/
def execAckAlarm (h : Header) (body : List Payload) (s : State) : Host.Outcome State Fault Refusal :=
  .next (s.submit h Kind.ackAlarm.code body)

/-- MASK_ALARMS. The request MASK_ALARMS arrives (R128). -/
def execMaskAlarms (h : Header) (body : List Payload) (s : State) : Host.Outcome State Fault Refusal :=
  .next (s.submit h Kind.maskAlarms.code body)

/-- CUE_DRAFT_CLEAR. The request CUE_DRAFT_CLEAR arrives (R145). -/
def execCueDraftClear (h : Header) (body : List Payload) (s : State) : Host.Outcome State Fault Refusal :=
  .next (s.submit h Kind.cueDraftClear.code body)

/-- CUE_DRAFT_APPEND. The request CUE_DRAFT_APPEND arrives (R146). -/
def execCueDraftAppend (h : Header) (body : List Payload) (s : State) : Host.Outcome State Fault Refusal :=
  .next (s.submit h Kind.cueDraftAppend.code body)

/-- CUE_COMMIT. The request CUE_COMMIT arrives (R147). -/
def execCueCommit (h : Header) (body : List Payload) (s : State) : Host.Outcome State Fault Refusal :=
  .next (s.submit h Kind.cueCommit.code body)

/-- CUE_GO. The request CUE_GO arrives (R158). -/
def execCueGo (h : Header) (body : List Payload) (s : State) : Host.Outcome State Fault Refusal :=
  .next (s.submit h Kind.cueGo.code body)

/-- CUE_REWIND. The request CUE_REWIND arrives (R155). -/
def execCueRewind (h : Header) (body : List Payload) (s : State) : Host.Outcome State Fault Refusal :=
  .next (s.submit h Kind.cueRewind.code body)

/-- TIMER_START. The request TIMER_START arrives (R166). -/
def execTimerStart (h : Header) (body : List Payload) (s : State) : Host.Outcome State Fault Refusal :=
  .next (s.submit h Kind.timerStart.code body)

/-- TIMER_STOP. The request TIMER_STOP arrives (R169). -/
def execTimerStop (h : Header) (body : List Payload) (s : State) : Host.Outcome State Fault Refusal :=
  .next (s.submit h Kind.timerStop.code body)

/-- SET_CONTACT_OWNER. The request SET_CONTACT_OWNER arrives (R180). -/
def execSetContactOwner (h : Header) (body : List Payload) (s : State) : Host.Outcome State Fault Refusal :=
  .next (s.submit h Kind.setContactOwner.code body)

/-- SET_CONTACT. The request SET_CONTACT arrives (R183). -/
def execSetContact (h : Header) (body : List Payload) (s : State) : Host.Outcome State Fault Refusal :=
  .next (s.submit h Kind.setContact.code body)

/-- ENGINE_RESTART. The request ENGINE_RESTART arrives (R207). -/
def execEngineRestart (h : Header) (body : List Payload) (s : State) : Host.Outcome State Fault Refusal :=
  .next (s.submit h Kind.engineRestart.code body)

/-- UNKNOWN_KIND_REQUEST. A request whose kind code names no kind arrives (R196). -/
def execUnknownKindRequest (h : Header) (kind : BitVec 6) (body : List Payload) (s : State) : Host.Outcome State Fault Refusal :=
  .next (s.submit h kind body)

end Sys2Proof.Machine
end

