-- ==== Sys2Proof/Machine/Dispatch.lean ====
section
/-! DEFINITION. The dispatcher: one arm for each command. -/

namespace Sys2Proof.Machine

def exec (i : Instr) (s : State) : Host.Outcome State Fault Refusal :=
  match i with
  | .fullReset supplyLine => Sys2Proof.Machine.execFullReset supplyLine s
  | .supplyWarningAsserted order supplyFirst => Sys2Proof.Machine.execSupplyWarningAsserted order supplyFirst s
  | .supplyWarningReleased => Sys2Proof.Machine.execSupplyWarningReleased s
  | .feedTrunkFrame lanes slots order => Sys2Proof.Machine.execFeedTrunkFrame lanes slots order s
  | .missingFeedFrame order => Sys2Proof.Machine.execMissingFeedFrame order s
  | .rackWord r w => Sys2Proof.Machine.execRackWord r w s
  | .samplePeriod lines order => Sys2Proof.Machine.execSamplePeriod lines order s
  | .outboundFeedFrame => Sys2Proof.Machine.execOutboundFeedFrame s
  | .boothMessage h kind body => Sys2Proof.Machine.execBoothMessage h kind body s
  | .settlingEnd r => Sys2Proof.Machine.execSettlingEnd r s
  | .debounceComplete r w => Sys2Proof.Machine.execDebounceComplete r w s
  | .rackLoss r w => Sys2Proof.Machine.execRackLoss r w s
  | .pilotAttemptTimeout r => Sys2Proof.Machine.execPilotAttemptTimeout r s
  | .pathRampEnd r => Sys2Proof.Machine.execPathRampEnd r s
  | .fadeEnd r => Sys2Proof.Machine.execFadeEnd r s
  | .dipBottom r => Sys2Proof.Machine.execDipBottom r s
  | .dipAscentEnd r => Sys2Proof.Machine.execDipAscentEnd r s
  | .timecodeLoss r => Sys2Proof.Machine.execTimecodeLoss r s
  | .timecodeStillExpiry r same => Sys2Proof.Machine.execTimecodeStillExpiry r same s
  | .meterBlockEnd order => Sys2Proof.Machine.execMeterBlockEnd order s
  | .alarmHandover r => Sys2Proof.Machine.execAlarmHandover r s
  | .timerExpiry r t => Sys2Proof.Machine.execTimerExpiry r t s
  | .contactEdge c => Sys2Proof.Machine.execContactEdge c s
  | .tableStoreInitEnd => Sys2Proof.Machine.execTableStoreInitEnd s
  | .restartEnd => Sys2Proof.Machine.execRestartEnd s
  | .readPart h body => Sys2Proof.Machine.execReadPart h body s
  | .readRoom h body => Sys2Proof.Machine.execReadRoom h body s
  | .readCounts h body => Sys2Proof.Machine.execReadCounts h body s
  | .readMeters h body => Sys2Proof.Machine.execReadMeters h body s
  | .readAlarms h body => Sys2Proof.Machine.execReadAlarms h body s
  | .readCues h body => Sys2Proof.Machine.execReadCues h body s
  | .readBank h body => Sys2Proof.Machine.execReadBank h body s
  | .readProfile h body => Sys2Proof.Machine.execReadProfile h body s
  | .readContacts h body => Sys2Proof.Machine.execReadContacts h body s
  | .go h body => Sys2Proof.Machine.execGo h body s
  | .setRoom h body => Sys2Proof.Machine.execSetRoom h body s
  | .setGuard h body => Sys2Proof.Machine.execSetGuard h body s
  | .setSourceMap h body => Sys2Proof.Machine.execSetSourceMap h body s
  | .selectSource h body => Sys2Proof.Machine.execSelectSource h body s
  | .setFormatEntry h body => Sys2Proof.Machine.execSetFormatEntry h body s
  | .selectFormat h body => Sys2Proof.Machine.execSelectFormat h body s
  | .clearProfile h body => Sys2Proof.Machine.execClearProfile h body s
  | .loadProfileRow h body => Sys2Proof.Machine.execLoadProfileRow h body s
  | .setProfileParams h body => Sys2Proof.Machine.execSetProfileParams h body s
  | .loadFaderLaw h body => Sys2Proof.Machine.execLoadFaderLaw h body s
  | .setGain h body => Sys2Proof.Machine.execSetGain h body s
  | .setMute h body => Sys2Proof.Machine.execSetMute h body s
  | .loadSections h body => Sys2Proof.Machine.execLoadSections h body s
  | .setTrims h body => Sys2Proof.Machine.execSetTrims h body s
  | .clearBank h body => Sys2Proof.Machine.execClearBank h body s
  | .copyBank h body => Sys2Proof.Machine.execCopyBank h body s
  | .selectBank h body => Sys2Proof.Machine.execSelectBank h body s
  | .setAlarmEntry h body => Sys2Proof.Machine.execSetAlarmEntry h body s
  | .ackAlarm h body => Sys2Proof.Machine.execAckAlarm h body s
  | .maskAlarms h body => Sys2Proof.Machine.execMaskAlarms h body s
  | .cueDraftClear h body => Sys2Proof.Machine.execCueDraftClear h body s
  | .cueDraftAppend h body => Sys2Proof.Machine.execCueDraftAppend h body s
  | .cueCommit h body => Sys2Proof.Machine.execCueCommit h body s
  | .cueGo h body => Sys2Proof.Machine.execCueGo h body s
  | .cueRewind h body => Sys2Proof.Machine.execCueRewind h body s
  | .timerStart h body => Sys2Proof.Machine.execTimerStart h body s
  | .timerStop h body => Sys2Proof.Machine.execTimerStop h body s
  | .setContactOwner h body => Sys2Proof.Machine.execSetContactOwner h body s
  | .setContact h body => Sys2Proof.Machine.execSetContact h body s
  | .engineRestart h body => Sys2Proof.Machine.execEngineRestart h body s
  | .unknownKindRequest h kind body => Sys2Proof.Machine.execUnknownKindRequest h kind body s

end Sys2Proof.Machine
end

