-- ==== Sys2Proof/Machine/Step.lean ====
section
/-! DEFINITION. One step: the command at the front of the queue is run with the queue's rest; on an empty queue the block idles. -/

namespace Sys2Proof.Machine

/-- The command at the front of the queue runs, and the queue keeps its rest; with no command waiting nothing changes
(DESIGN CHOICE: time passes by the command SAMPLE_PERIOD alone; assumption 2). -/
def step (s : State) : Host.Outcome State Fault Refusal :=
  match s.pending with
  | [] => .next s
  | c :: rest => exec c { s with pending := rest }

/-- The state with a command put at the front of the queue. -/
def State.push (s : State) (c : Instr) : State := { s with pending := c :: s.pending }

/-- The state with the command that a word spells at the front of the queue; unchanged where the word spells none.
DESIGN CHOICE, assumption 15. -/
def State.withFetchWord (s : State) (nbits w : Nat) : State :=
  match decodeTableWord nbits w with
  | some c => s.push c
  | none => s

end Sys2Proof.Machine
end

