-- ==== Sys2Proof/Safety.lean ====
section
/-! DEFINITION. The terms in which claims are stated: a part that can take a message, admitted requests and their replies, and
the invariants of the records (R5, R26, R64, R110, R111, R133, R142, R150, R177, R190, R205). -/

namespace Sys2Proof.Machine

/-! ### Requests as messages -/

/-- The message of a request row, and of BOOTH_MESSAGE (Table 11-1, R215); nothing for the other commands. -/
def request? (i : Instr) : Option Request :=
  let msg (k : Kind) (h : Header) (body : List Payload) : Option Request :=
    some ⟨h.originator, h.level, k.code, h.room, h.tag, body⟩
  match i with
  | .boothMessage h kind body => some ⟨h.originator, h.level, kind, h.room, h.tag, body⟩
  | .unknownKindRequest h kind body => some ⟨h.originator, h.level, kind, h.room, h.tag, body⟩
  | .readPart h body => msg .readPart h body
  | .readRoom h body => msg .readRoom h body
  | .readCounts h body => msg .readCounts h body
  | .readMeters h body => msg .readMeters h body
  | .readAlarms h body => msg .readAlarms h body
  | .readCues h body => msg .readCues h body
  | .readBank h body => msg .readBank h body
  | .readProfile h body => msg .readProfile h body
  | .readContacts h body => msg .readContacts h body
  | .go h body => msg .go h body
  | .setRoom h body => msg .setRoom h body
  | .setGuard h body => msg .setGuard h body
  | .setSourceMap h body => msg .setSourceMap h body
  | .selectSource h body => msg .selectSource h body
  | .setFormatEntry h body => msg .setFormatEntry h body
  | .selectFormat h body => msg .selectFormat h body
  | .clearProfile h body => msg .clearProfile h body
  | .loadProfileRow h body => msg .loadProfileRow h body
  | .setProfileParams h body => msg .setProfileParams h body
  | .loadFaderLaw h body => msg .loadFaderLaw h body
  | .setGain h body => msg .setGain h body
  | .setMute h body => msg .setMute h body
  | .loadSections h body => msg .loadSections h body
  | .setTrims h body => msg .setTrims h body
  | .clearBank h body => msg .clearBank h body
  | .copyBank h body => msg .copyBank h body
  | .selectBank h body => msg .selectBank h body
  | .setAlarmEntry h body => msg .setAlarmEntry h body
  | .ackAlarm h body => msg .ackAlarm h body
  | .maskAlarms h body => msg .maskAlarms h body
  | .cueDraftClear h body => msg .cueDraftClear h body
  | .cueDraftAppend h body => msg .cueDraftAppend h body
  | .cueCommit h body => msg .cueCommit h body
  | .cueGo h body => msg .cueGo h body
  | .cueRewind h body => msg .cueRewind h body
  | .timerStart h body => msg .timerStart h body
  | .timerStop h body => msg .timerStop h body
  | .setContactOwner h body => msg .setContactOwner h body
  | .setContact h body => msg .setContact h body
  | .engineRestart h body => msg .engineRestart h body
  | .fullReset _ | .supplyWarningAsserted _ _ | .supplyWarningReleased | .feedTrunkFrame _ _ _ | .missingFeedFrame _
  | .rackWord _ _ | .samplePeriod _ _ | .outboundFeedFrame | .settlingEnd _ | .debounceComplete _ _ | .rackLoss _ _
  | .pilotAttemptTimeout _ | .pathRampEnd _ | .fadeEnd _ | .dipBottom _ | .dipAscentEnd _ | .timecodeLoss _
  | .timecodeStillExpiry _ _ | .meterBlockEnd _ | .alarmHandover _ | .timerExpiry _ _ | .contactEdge _
  | .tableStoreInitEnd | .restartEnd => none

/-! ### When a request is taken and admitted -/

/-- A message that arrives is taken at once: a sample period is open (a message that finds none open opens the next first,
assumption 1), no assembly is in progress, and the request queue and the reply holder are empty (R188, R193). -/
abbrev State.listening (s : State) : Prop :=
  s.periodOpen = true ∧ s.mgmt.asm.stage = .idle ∧ s.mgmt.queue = [] ∧ s.mgmt.holder = none

/-- Requests pass steps 3 and 5: the Table Store is READY, no engine restart is in progress and the supply warning is
released (R197, R199). -/
abbrev State.operational (s : State) : Prop := s.store = .ready ∧ s.restart = none ∧ s.supply = false

/-- Reads pass step 3 (R197); step 5 passes them in every supply state (R199). -/
abbrev State.readable (s : State) : Prop := s.store = .ready ∧ s.restart = none

/-- The message names room `r` (R196). -/
abbrev namesRoom (h : Header) (r : Room) : Prop := h.room.toNat = r.val

/-- The message names no room: room code 15 (R196, R215). -/
abbrev namesNone (h : Header) : Prop := h.room.toNat = 15

/-- The sender may write in room `r`: level class "room write" (Table 10-2, R198). -/
abbrev State.mayWrite (s : State) (h : Header) (r : Room) : Prop :=
  h.room.toNat = r.val ∧ h.level.toNat ≤ 2 ∧ h.level.toNat ≤ (s.room r).guard.val

/-- A room write is taken and passes the five admission steps that do not look at its body (R195 to R199). -/
abbrev State.admits (s : State) (h : Header) (r : Room) : Prop := s.listening ∧ s.operational ∧ s.mayWrite h r

/-- A part-table write is taken and passes the admission steps (R195 to R199, Table 10-2). -/
abbrev State.admitsTable (s : State) (h : Header) : Prop :=
  s.listening ∧ s.operational ∧ namesNone h ∧ h.level.toNat ≤ 1

/-- The part with a reply to the request of this header and kind in the reply holder, and nothing else changed (R193,
R202). -/
def State.replied (s : State) (h : Header) (k : Kind) (res : Result) (fs : List Fld) : State :=
  { s with mgmt := { s.mgmt with holder := some ⟨h.originator, k.code, res, h.tag, pack fs⟩ } }

/-- The part with a reply to request `q` in the reply holder. -/
def State.repliedTo (s : State) (q : Request) (res : Result) (body : List Payload) : State :=
  { s with mgmt := { s.mgmt with holder := some ⟨q.originator, q.kind, res, q.tag, body⟩ } }

/-- The part with the path of room `r` changed. -/
def State.modPath (s : State) (r : Room) (f : Path → Path) : State := s.modRoom r fun rm => { rm with path := f rm.path }

/-- The part with one contact output changed. -/
def State.modOutput (s : State) (o : Fin 24) (f : ContactOut → ContactOut) : State :=
  { s with outputs := s.outputs.set o.val (f s.outputs[o]) o.isLt }

/-- Nothing differs between `s` and `t` but the rooms' records, the alarm list, and the notice queue with its two counters. -/
abbrev State.onlyRooms (s t : State) : Prop :=
  t = { s with
    rooms := t.rooms
    alarms := t.alarms
    mgmt := { s.mgmt with
      notices := t.mgmt.notices, dropCount := t.mgmt.dropCount, discardTotal := t.mgmt.discardTotal } }

/-- As `State.onlyRooms`, and no room's record differs but that of `r`. -/
abbrev State.onlyRoom (s t : State) (r : Room) : Prop := s.onlyRooms t ∧ ∀ r', r' ≠ r → t.room r' = s.room r'

/-- The Management Unit after notices that name room `r`, one after another, each with the snapshot of the record given (R204,
R205). -/
def Mgmt.told (m : Mgmt) (r : Room) (rm : RoomRec) (bodies : List NoticeBody) : Mgmt :=
  bodies.foldl (fun m b => m.raise (some (r, rm.snapshot)) b) m

/-- The part after commands taken one after another. -/
def State.after (s : State) (cs : List Instr) : State :=
  cs.foldl (fun u c => match exec c u with
    | .next v => v
    | .fault _ | .refused _ => u) s

/-- A room as it leaves LIVE, before its path changes: every filled slot of a dip in flight is applied, with the switch of the timecode
lane, the zeroing of an entry into MX4 and of a swap, and the swap's return of OVER and CLIP conditions to QUIET, and the dip is IDLE; a room
without a dip, and one that is not LIVE, is left as it is (R47, R67, R68, R74, R101, R102). -/
def RoomRec.leavingLive (rm : RoomRec) : RoomRec :=
  let fmt := rm.dip.fmtSlot.getD rm.activeFormat
  let src := rm.dip.srcSlot.getD rm.activeSource
  let mx4 : Bool := decide (rm.formats[rm.activeFormat].mode = .discrete) && decide (rm.formats[fmt].mode = .mx4)
  let quieten (x : Cond) : Cond := if x.phase = .raised ∨ x.phase = .heldAck then x else .quiet
  if rm.path.state ≠ .live ∨ rm.dip.stage = .idle then rm
  else { rm with
    activeFormat := fmt
    activeSource := src
    bankInService := rm.dip.bankSlot.getD rm.bankInService
    tc := rm.tc.switch (rm.mapOf rm.activeSource).tc (rm.mapOf src).tc
    decode := if mx4 then .zero else rm.decode
    ahead := rm.ahead.map fun e => { e with
      histStands := e.histStands && rm.dip.bankSlot.isNone, decodeStands := e.decodeStands && !mx4 }
    histA := if rm.dip.bankSlot = none then rm.histA else .zero
    histB := if rm.dip.bankSlot = none then rm.histB else .zero
    conds := if rm.dip.bankSlot = none then rm.conds else Vector.ofFn fun k => { rm.conds[k] with
      onOver := quieten rm.conds[k].onOver, onClip := quieten rm.conds[k].onClip }
    dip := ⟨.idle, 0, 65536, none, none, none, false⟩ }

/-- The kinds of the nine reads (Table 10-1). -/
def readKinds : List Kind :=
  [.readPart, .readRoom, .readCounts, .readMeters, .readAlarms, .readCues, .readBank, .readProfile, .readContacts]

/-! ### Invariants of the records -/

/-- The phases that belong to each state (Table 1-2, R5). -/
def RoomState.hasPhase : RoomState → Phase → Bool
  | .listen, .settling | .listen, .debouncing => true
  | .prove, .proving => true
  | .live, .none | .live, .rampingIn | .live, .rampingOutPark | .live, .rampingOutOff | .live, .supplyRamp => true
  | .off, .none | .ready, .none | .parked, .none | .halted, .none => true
  | _, _ => false

/-- The end value and the length of the path ramp of a phase (R25); nothing for the phases without a ramp. -/
def Phase.ramp? : Phase → Option (Nat × Nat)
  | .rampingIn => some (65536, 480)
  | .rampingOutPark | .rampingOutOff => some (0, 480)
  | .supplyRamp => some (0, 192)
  | .none | .settling | .debouncing | .proving => Option.none

/-- The ramp in flight is the one of the phase, and p stands at its value (R25). -/
def Path.rampOk (p : Path) : Prop :=
  match p.ramp, p.phase.ramp? with
  | none, none => True
  | some r, some e => r.p1 = e.1 ∧ r.len = e.2 ∧ r.n ≤ r.len ∧ r.p0 ≤ 65536 ∧ p.p = r.value
  | _, _ => False

/-- What holds of every room's path: its phase belongs to its state (R5), proven is yes only with every fitted channel
PASSED and in READY, LIVE or PARKED, and always in LIVE and PARKED (R26), the halt cause is RACK_LOST in HALTED alone (R12),
p lies in its range and is 0 outside LIVE (R6, R64), the ramp is that of the phase (R25), and no rack loss is left
untaken (R9). -/
def Path.ok (p : Path) : Prop :=
  p.state.hasPhase p.phase = true ∧
  (p.proven = true → p.allPassed = true ∧ (p.state = .ready ∨ p.state = .live ∨ p.state = .parked)) ∧
  (p.state = .live ∨ p.state = .parked → p.proven = true) ∧
  (p.halt = .rackLost ↔ p.state = .halted) ∧
  p.p ≤ 65536 ∧ (p.state ≠ .live → p.p = 0) ∧ (p.state = .live ∧ p.phase = .none → p.p = 65536) ∧
  p.rampOk ∧ p.rackAbsence < 2400

/-- Every room's path is as `Path.ok` says. -/
def State.pathsOk (s : State) : Prop := ∀ r : Room, (s.room r).path.ok

/-- The Management Unit: at most four requests (R190) and 32 notices (R205), a drop count of at most 255 (R205), no request
waiting beside an empty reply holder (R193), a reply in the holder while it is being sent (R203), and an assembly that has
not reached its declared length (R188). -/
def Mgmt.ok (m : Mgmt) : Prop :=
  m.queue.length ≤ 4 ∧ m.notices.length ≤ 32 ∧ m.dropCount ≤ 255 ∧
  (m.holder = none → m.queue = []) ∧
  (∀ x, m.sending = some x → x.words ≠ [] ∧ (x.isReply = true → m.holder ≠ none)) ∧
  (m.asm.stage = .idle → m.asm = .idle) ∧
  (m.asm.stage = .awaitKind → m.asm.body = []) ∧
  (m.asm.stage = .body → m.asm.body.length < m.asm.declared) ∧ m.asm.declared ≤ 127

/-- The counts of a bank are those of its tags (R90). -/
def Bank.ok (b : Bank) : Prop := b.active = countTags .active b.chans ∧ b.rejected = countTags .rejected b.chans

/-- A slot: a slot that has been written carries the tag of its coefficients (R89), so that an ACTIVE one passes the stability
test (R108). -/
def SlotRec.ok (x : SlotRec) : Prop :=
  (x.tag = .empty ∨ x.tag = x.coefs.tag) ∧ (x.tag = .active → |x.coefs.a2| < 4194304 ∧ |x.coefs.a1| < 4194304 + x.coefs.a2)

/-- Every slot of every bank is as `SlotRec.ok` says (R89, R108). -/
def State.tagsOk (s : State) : Prop := ∀ (r : Room) (n : BankName) (k : Chan) (i : Fin 8), (((s.room r).bank n).chans[k].slots[i]).ok

/-- The Budget Account: every bank's counts follow its tags (R90), every commitment is what R109 gives for the room's tables,
the committed total is the sum of the twelve, and it is at most 1,280 (R110, R111). -/
def State.budgetOk (s : State) : Prop :=
  (∀ r : Room, (s.room r).bankA.ok ∧ (s.room r).bankB.ok ∧ (s.room r).commitment = (s.room r).charge) ∧
  s.committedTotal = ((List.finRange 12).map fun r => (s.room r).commitment).sum ∧ s.committedTotal ≤ 1280

/-- An entry agrees with its condition: an ACTIVE one's is RAISED and listed, a CLEARED one's is QUIET or PENDING (R133). -/
def AlarmEntry.agrees (e : AlarmEntry) (c : Cond) : Prop :=
  if e.active = true then c.phase = .raised ∧ c.unlisted = false else c.phase = .quiet ∨ c.phase = .pending

/-- The alarm list: at most 48 entries (R130), at most one for a condition (R131), each in agreement with its condition
(R133); every RAISED condition is either listed or marked unlisted, and only a RAISED one is marked (R131, R132). -/
def State.alarmsOk (s : State) : Prop :=
  s.alarms.length ≤ 48 ∧ (s.alarms.map fun e => (e.room, e.cond)).Nodup ∧
  (∀ e ∈ s.alarms, e.agrees ((s.room e.room).cond e.cond)) ∧
  (∀ (r : Room) (x : CondId),
    (((s.room r).cond x).unlisted = true → ((s.room r).cond x).phase = .raised) ∧
    (((s.room r).cond x).phase = .raised → ((s.room r).cond x).unlisted = false →
      ∃ e ∈ s.alarms, e.room = r ∧ e.cond = x))

/-- No entry of the alarm list is of a room in OFF (R130, R138). -/
def State.offUnlisted (s : State) : Prop := ∀ e ∈ s.alarms, (s.room e.room).path.state ≠ .off

/-- A room's gain lies in its range, and a fade in flight stands at its value (R60, R61, R64). -/
def Gain.ok (g : Gain) : Prop :=
  g.g ≤ 131071 ∧
  ∀ f, g.fade = some f → f.g0 ≤ 131071 ∧ f.g1 ≤ 131071 ∧ 0 < f.len ∧ f.len ≤ 2880000 ∧ f.n ≤ f.len ∧ g.g = f.value

/-- A room's dip: d is the factor of the stage and step (R65), and in IDLE every slot is empty and follow-on is no (R66,
R67). -/
def Dip.ok (d : Dip) : Prop :=
  d.step ≤ 240 ∧
  match d.stage with
  | .idle => d.step = 0 ∧ d.d = 65536 ∧ d.filled = false ∧ d.followOn = false
  | .descent => d.d = 65536 * (240 - d.step) / 240
  | .ascent => d.d = 65536 * d.step / 240

/-- The factors of the chain lie in their ranges (R50, R59, R64), and only a room in LIVE has a dip (R68). -/
def State.factorsOk (s : State) : Prop :=
  (∀ f : Fin 101, s.law[f] ≤ 131071) ∧
  ∀ r : Room, (s.room r).gain.ok ∧ (s.room r).dip.ok ∧ ((s.room r).path.state ≠ .live → (s.room r).dip.stage = .idle)

/-- The value is a 24-bit sample (R32). -/
def isSample (x : Int) : Prop := -8388608 ≤ x ∧ x ≤ 8388607

/-- A room's decode state: every envelope is 0 to 8,388,608 and each dominance index −16 to 16 (R83, R84). -/
def DecodeState.ok (d : DecodeState) : Prop :=
  (∀ e ∈ [d.eL, d.eR, d.eS, d.eD], 0 ≤ e ∧ e ≤ 8388608) ∧ ∀ x ∈ [d.lr, d.cs], -16 ≤ x ∧ x ≤ 16

/-- The hold value of every lane and every programme channel is a sample (R34, R35), and every decode state is in range, also one that
chains ahead of events of their period use. -/
def State.signalsOk (s : State) : Prop :=
  (∀ l : Lane, isSample s.lanes[l].hold) ∧
  ∀ r : Room, (∀ c : Chan, isSample (s.room r).prog[c]) ∧ (s.room r).decode.ok ∧ ∀ e, (s.room r).ahead = some e → e.decode.ok

/-- A list or a draft holds at most 128 entries in ascending order of number, each number 1 to 9,999 (R142, R143). -/
def cuesOrdered (l : List Cue) : Prop :=
  l.length ≤ 128 ∧ (l.map (·.number)).Pairwise (· < ·) ∧ ∀ c ∈ l, 1 ≤ c.number ∧ c.number ≤ 9999

/-- The position is that of an AT cue or the end of the list (R150). -/
def cursorAt (l : List Cue) (n : Nat) : Prop :=
  n = l.length ∨ ∃ c, l[n]? = some c ∧ c.frame?.isSome = true

/-- The cue store and the cursors (R142, R147, R150). -/
def State.cuesOk (s : State) : Prop :=
  s.cueUsed ≤ 512 ∧
  ∀ r : Room, cuesOrdered (s.room r).list ∧ cuesOrdered (s.room r).draft ∧
    ((s.room r).list.filterMap Cue.frame?).Pairwise (· ≤ ·) ∧ cursorAt (s.room r).list (s.room r).cursor

/-- The cursor against the last frame: every AT cue before it has a frame no greater than the last frame, and it stands at base
whenever the last frame is NONE (R150), while the room is in OFF (R154) and while the supply warning is asserted (R171). While
the Table Store initialises or an engine restart runs, every room is in OFF with phase none (R206, R208). -/
def State.cursorsOk (s : State) : Prop :=
  ∀ r : Room,
    let rm := s.room r
    (∀ i < rm.cursor, ∀ c f, rm.list[i]? = some c → c.frame? = some f → ∃ t, rm.tc.last = some t ∧ f ≤ t) ∧
    (rm.tc.last = none ∨ rm.path.state = .off ∨ s.supply = true → rm.cursor = baseOf rm.list) ∧
    (s.store ≠ .ready ∨ s.restart ≠ none → rm.path.state = .off ∧ rm.path.phase = .none)

/-- A timer: its count in range, remaining above 0 while it runs and 0 while it is stopped, at most what it started from, and 1
in the period of an expiry that has not been taken (R165, R167). -/
def Timer.ok (t : Timer) : Prop :=
  1 ≤ t.count ∧ t.count ≤ 65535 ∧ (t.running = true → 0 < t.remaining) ∧
  (t.running = false → t.remaining = 0 ∧ t.expiring = false) ∧ (t.expiring = true → t.remaining = 1) ∧
  t.remaining ≤ t.full

/-- Every timer is as `Timer.ok` says (R165). -/
def State.timersOk (s : State) : Prop := ∀ (r : Room) (i : Fin 4), ((s.room r).timers[i]).ok

/-- The contact inputs' change runs (R177) and the position in the meter block (R117). -/
def State.countsOk (s : State) : Prop :=
  (∀ i : Fin 16, s.inputs[i].run < 960) ∧ s.blockPos ≤ 480 ∧ (s.blockEndDue = true ↔ s.blockPos = 480) ∧
  (s.periodOpen = true → s.blockEndDue = false) ∧ (s.blockEnded = true → s.periodOpen = true ∧ s.blockPos = 0)

end Sys2Proof.Machine
end

