-- ==== Sys2Proof/WellFormed.lean ====
section
/-! DEFINITION. Well-formed commands: the operands a command can carry on the lines and trunks of the part. -/

namespace Sys2Proof

open Machine

/-- A body has a length that the START word can declare, 0 to 127 (R215). -/
def bodyOk (body : List Payload) : Bool := decide (body.length ≤ 127)

/-- An order names no room twice. -/
def orderOk (order : List Room) : Bool := decide order.Nodup

/-- The kind code names no kind (R215). -/
def unknownKind (kind : BitVec 6) : Bool := (Kind.ofCode kind.toNat).isNone

/-- The rack word says "present yes" (R16, R213). -/
def presentWord (w : Word) : Bool := (RackWord.ofWord w).present

/-- The rack word, or the missing frame, says "present no" (R8, R9). -/
def absentWord (w : Option Word) : Bool := !(RackWord.ofFrame w).present

/-- Well-formed commands. -/
def Instr.wellFormed (i : Instr) : Bool :=
  match i with
  | .fullReset _ => true
  | .supplyWarningAsserted order _ => orderOk order
  | .supplyWarningReleased => true
  | .feedTrunkFrame _ _ order => orderOk order.rooms && orderOk order.later
  | .missingFeedFrame order => orderOk order.rooms && orderOk order.later
  | .rackWord _ _ => true
  | .samplePeriod _ order => orderOk order.rooms && orderOk order.ahead
  | .outboundFeedFrame => true
  | .boothMessage _ _ body => bodyOk body
  | .settlingEnd _ => true
  | .debounceComplete _ w => presentWord w
  | .rackLoss _ w => absentWord w
  | .pilotAttemptTimeout _ => true
  | .pathRampEnd _ => true
  | .fadeEnd _ => true
  | .dipBottom _ => true
  | .dipAscentEnd _ => true
  | .timecodeLoss _ => true
  | .timecodeStillExpiry _ _ => true
  | .meterBlockEnd order => orderOk order
  | .alarmHandover _ => true
  | .timerExpiry _ _ => true
  | .contactEdge _ => true
  | .tableStoreInitEnd => true
  | .restartEnd => true
  | .unknownKindRequest _ kind body => unknownKind kind && bodyOk body
  | .readPart _ body => bodyOk body
  | .readRoom _ body => bodyOk body
  | .readCounts _ body => bodyOk body
  | .readMeters _ body => bodyOk body
  | .readAlarms _ body => bodyOk body
  | .readCues _ body => bodyOk body
  | .readBank _ body => bodyOk body
  | .readProfile _ body => bodyOk body
  | .readContacts _ body => bodyOk body
  | .go _ body => bodyOk body
  | .setRoom _ body => bodyOk body
  | .setGuard _ body => bodyOk body
  | .setSourceMap _ body => bodyOk body
  | .selectSource _ body => bodyOk body
  | .setFormatEntry _ body => bodyOk body
  | .selectFormat _ body => bodyOk body
  | .clearProfile _ body => bodyOk body
  | .loadProfileRow _ body => bodyOk body
  | .setProfileParams _ body => bodyOk body
  | .loadFaderLaw _ body => bodyOk body
  | .setGain _ body => bodyOk body
  | .setMute _ body => bodyOk body
  | .loadSections _ body => bodyOk body
  | .setTrims _ body => bodyOk body
  | .clearBank _ body => bodyOk body
  | .copyBank _ body => bodyOk body
  | .selectBank _ body => bodyOk body
  | .setAlarmEntry _ body => bodyOk body
  | .ackAlarm _ body => bodyOk body
  | .maskAlarms _ body => bodyOk body
  | .cueDraftClear _ body => bodyOk body
  | .cueDraftAppend _ body => bodyOk body
  | .cueCommit _ body => bodyOk body
  | .cueGo _ body => bodyOk body
  | .cueRewind _ body => bodyOk body
  | .timerStart _ body => bodyOk body
  | .timerStop _ body => bodyOk body
  | .setContactOwner _ body => bodyOk body
  | .setContact _ body => bodyOk body
  | .engineRestart _ body => bodyOk body

end Sys2Proof
end

