-- ==== Sys2Proof/Certificates/Slice0/Obligations.lean ====
section
/-! DEFINITION. The statements for the provers, family by family. A statement about a command's completion gives the next state
by an equation, or by what it holds, under premises on the state and the operands alone. -/

open Sys2Proof Sys2Proof.Machine

/-! ### The step -/

/-- A step takes the command at the front of the queue and runs it with the queue's rest; no command stops the part, for the
spec names no event that does. On an empty queue the block idles (the model's own choice, assumption 2). -/
def Obligations.StepRunsFrontCommand : Prop :=
  (∀ (c : Instr) (rest : List Instr) (s : State), s.pending = c :: rest → step s = exec c { s with pending := rest }) ∧
  (∀ s : State, s.pending = [] → step s = .next s) ∧
  ∀ (c : Instr) (s : State), ∃ t, exec c s = .next t

/-! ### Messages, the request queue and the notice queue (10) -/

/-- A request that completes while nothing is held or waiting is taken at once, and its one reply goes into the holder
(R193).

A request that completes while a reply is held joins the tail, and one that finds four requests waiting is discarded,
counted and announced (R192, R193). It holds of BOOTH_MESSAGE and of every request row. A request that arrives with no sample period
open opens the next one first (the model's own choice, assumption 1). -/
def Obligations.RequestTakenOrQueued : Prop :=
  (∀ (i : Instr) (q : Request) (s : State), request? i = some q → s.listening →
    exec i s = .next ((s.answer q).1.repliedTo q (s.answer q).2.1 (s.answer q).2.2)) ∧
  (∀ (i : Instr) (q : Request) (s : State), request? i = some q → exec i s = exec i s.openPeriod) ∧
  (∀ (i : Instr) (q : Request) (s : State), request? i = some q → s.periodOpen = true → s.mgmt.asm.stage = .idle →
    (s.mgmt.queue.length < 4 → s.mgmt.holder ≠ none →
      exec i s = .next { s with mgmt := { s.mgmt with queue := s.mgmt.queue ++ [q] } }) ∧
    (4 ≤ s.mgmt.queue.length →
      exec i s = .next ({ s with mgmt := { s.mgmt with overflow := s.mgmt.overflow + 1 } }.notifyPart (.queueOverflow q))))

/-- A refused request changes no state of the part apart from the issue of its reply (R195). -/
def Obligations.RefusalChangesNothing : Prop :=
∀ (s : State) (q : Request), (s.answer q).2.1 ≠ .ok → (s.answer q).1 = s

/-- A message whose START word, kind word and body arrive slot by slot becomes one request (R188, R215).

What discards an assembly: an EMPTY word, a corrupt word or a START word while it is not IDLE, and a corrupt word or a DATA
word outside a message; each adds one to the malformed counter (R189). That a whole message, arriving as one command while the
assembly is not IDLE, is such a START word is the model's reading (assumption 7, DEDUCED), and what the other fields hold in IDLE is its own
choice (assumption 10, DESIGN CHOICE). -/
def Obligations.MessageGatheredOrDiscarded : Prop :=
  (∀ (s : State) (start kind : Payload) (body : List Payload), s.mgmt.asm = .idle →
    body.length = (start.extractLsb' 8 7).toNat →
    (SlotWord.start start :: SlotWord.data kind :: body.map SlotWord.data).foldl State.takeWord s =
      s.complete ⟨start.extractLsb' 0 6, start.extractLsb' 6 2, kind.extractLsb' 20 6, kind.extractLsb' 16 4,
        kind.extractLsb' 0 16, body⟩) ∧
  (∀ s : State,
    let broken : State := { s with mgmt := { s.mgmt with asm := .idle, malformed := s.mgmt.malformed + 1 } }
    (s.mgmt.asm.stage ≠ .idle → s.takeWord .empty = broken) ∧
    (s.mgmt.asm.stage = .idle → s.takeWord .empty = s) ∧
    s.takeWord .corrupt = broken ∧
    (∀ p, s.mgmt.asm.stage = .idle → s.takeWord (.data p) = broken) ∧
    (∀ p, s.mgmt.asm.stage ≠ .idle → s.takeWord (.start p) = broken.takeWord (.start p)) ∧
    (∀ (i : Instr) (q : Request), request? i = some q → s.periodOpen = true → s.mgmt.asm.stage ≠ .idle →
      exec i s = exec i broken))

/-- A notice joins the tail with the drop count, which then is 0; with 32 waiting it is discarded and counted (R205). A notice
that names a room carries the room's snapshot as it stands (R204).

The notices of an event that changes one room's path: ROOM_STATE with the state left, where the state changes; the event's own
notices after it (R7, R19); and one BANK_SWAPPED, where the room leaves LIVE with a bank change waiting in a dip (R68, R103); every one
with the snapshot after the change (R7, R103, R104). That BANK_SWAPPED comes after the others is the model's own choice, no rule's
(assumption 5, DESIGN CHOICE). -/
def Obligations.NoticeJoinsOrIsCounted : Prop :=
(∀ (s : State) (r : Room) (own : List NoticeBody) (f : RoomRec → RoomRec),
    let t := s.transit r own f
    let rm := s.room r
    let moved : List NoticeBody := if rm.path.state = (t.room r).path.state then [] else [.roomState rm.path.state]
    let swapped : List NoticeBody :=
      if rm.path.state = .live ∧ (f rm).path.state ≠ .live ∧ rm.dip.stage ≠ .idle then
        rm.dip.bankSlot.toList.map fun n => .bankSwapped rm.bankInService n
      else []
    s.onlyRoom t r ∧ t.alarms = s.alarms ∧ t.mgmt = s.mgmt.told r (t.room r) (moved ++ own ++ swapped)) ∧
(∀ (m : Mgmt) (r : Room) (rm : RoomRec) (b : NoticeBody) (l : List NoticeBody),
    m.told r rm [] = m ∧
    (m.notices.length < 32 → m.told r rm (b :: l) = ({ m with
      notices := m.notices ++ [⟨some (r, rm.snapshot), b, m.dropCount⟩], dropCount := 0 } : Mgmt).told r rm l) ∧
    (32 ≤ m.notices.length → m.told r rm (b :: l) = ({ m with
      dropCount := min 255 (m.dropCount + 1), discardTotal := m.discardTotal + 1 } : Mgmt).told r rm l)) ∧
∀ (s : State) (r : Room) (b : NoticeBody),
    (s.mgmt.notices.length < 32 →
      s.notifyPart b = { s with mgmt := { s.mgmt with
        notices := s.mgmt.notices ++ [⟨none, b, s.mgmt.dropCount⟩], dropCount := 0 } } ∧
      s.notify r b = { s with mgmt := { s.mgmt with
        notices := s.mgmt.notices ++ [⟨some (r, (s.room r).snapshot), b, s.mgmt.dropCount⟩], dropCount := 0 } }) ∧
    (32 ≤ s.mgmt.notices.length →
      s.notifyPart b = s.notify r b ∧
      s.notify r b = { s with mgmt := { s.mgmt with
        dropCount := min 255 (s.mgmt.dropCount + 1), discardTotal := s.mgmt.discardTotal + 1 } })

/-! ### Admission (R196 to R200) -/

/-- Step 1: a body above 72 words, an unknown kind code, or a body of another length than the kind's is MALFORMED (R196). The
row UNKNOWN_KIND_REQUEST ends so. -/
def Obligations.MalformedRefused : Prop :=
(∀ (i : Instr) (q : Request) (s : State), request? i = some q → s.listening →
    (72 < q.body.length ∨ Kind.ofCode q.kind.toNat = none ∨
      ∃ k, Kind.ofCode q.kind.toNat = some k ∧ k.lengthOk q.body = false) →
    exec i s = .next (s.repliedTo q .malformed [])) ∧
  ∀ (h : Header) (kind : BitVec 6) (body : List Payload) (s : State), s.listening →
    (kind.toNat = 0 ∨ 41 ≤ kind.toNat) →
    exec (.unknownKindRequest h kind body) s =
      .next (s.repliedTo ⟨h.originator, h.level, kind, h.room, h.tag, body⟩ .malformed [])

/-- Steps 2 and 3: a well-formed request whose room code does not suit its kind is BAD_ROOM (R196); while the Table Store
initialises or a restart runs, one of any other kind than READ_PART is NOT_READY (R197).

Step 5: a write that passed steps 1 to 4 is refused with SUPPLY_LOW while the supply warning is asserted, but for
ACK_ALARM and for GO with the target GO_OFF or GO_STOP (R199). -/
def Obligations.RoomStoreAndSupplyRefused : Prop :=
  (∀ (i : Instr) (q : Request) (k : Kind) (s : State), request? i = some q → s.listening → q.formed = some k →
    ((k.form = .room ∧ 12 ≤ q.room.toNat) ∨ (k.form = .none ∧ q.room.toNat ≠ 15) ∨
        (k.form = .roomOrNone ∧ 12 ≤ q.room.toNat ∧ q.room.toNat ≠ 15) →
      exec i s = .next (s.repliedTo q .badRoom [])) ∧
    (k.form.passes q.room = true → (s.store ≠ .ready ∨ s.restart ≠ none) → k ≠ .readPart →
      exec i s = .next (s.repliedTo q .notReady []))) ∧
  (∀ (i : Instr) (q : Request) (k : Kind) (s : State), request? i = some q → s.listening → s.readable →
    s.supply = true → q.formed = some k → k.form.passes q.room = true →
    s.levelPasses k (q.room?.getD 0) q = true → k ∉ readKinds → k ≠ .ackAlarm →
    ¬(k = .go ∧ (arg q.body 0 = 0 ∨ arg q.body 0 = 5)) →
    exec i s = .next (s.repliedTo q .supplyLow []))

/-- Step 4, class by class (Table 10-2): the request that passed steps 1 to 3 and whose level does not meet its class is
DENIED (R198). -/
def Obligations.DeniedRefused : Prop :=
∀ (i : Instr) (q : Request) (k : Kind) (r : Room) (s : State), request? i = some q → s.listening → s.readable →
    q.formed = some k → k.form.passes q.room = true → (q.room?.getD 0) = r →
    (match k.levelClass with
      | .any => False
      | .roomWrite => 2 < q.level.toNat ∨ (s.room r).guard.val < q.level.toNat
      | .partTable => 1 < q.level.toNat
      | .restart => 0 < q.level.toNat
      | .acknowledge => 2 < q.level.toNat
      | .cueGate => ∃ c, findCue (s.room r).list (arg q.body 0) = some c ∧ c.gate.val < q.level.toNat
      | .contact => 2 < q.level.toNat ∨
          ∃ (o : Fin 24) (w : Room), o.val = arg q.body 0 ∧ s.outputs[o].owner = some w ∧ (s.room w).guard.val < q.level.toNat
      | .guard => (s.room r).guard.val < q.level.toNat ∨ arg q.body 0 < q.level.toNat) →
    exec i s = .next (s.repliedTo q .denied [])

/-- Step 6: a request that passes steps 1 to 5 and has a field that names something outside its range is refused with BAD_FIELD, and
nothing changes (R200, and the rule of each kind: R14, R29, R39, R40, R59, R63, R71, R73, R76 to R78, R93, R95 to R97, R100, R122,
R135, R158, R166, R169, R180, R183, R201 and the reads' rules). That of CUE_DRAFT_APPEND, whose body holds entries, stands with the cue
sequences. -/
def Obligations.BadFieldsRefused : Prop :=
∀ (i : Instr) (q : Request) (k : Kind) (s : State), request? i = some q → s.listening → s.readable → q.formed = some k →
    k.form.passes q.room = true → s.levelPasses k (q.room?.getD 0) q = true →
    (s.supply = false ∨ k ∈ readKinds ∨ k = .ackAlarm) →
    let a := arg q.body 0
    let b := arg q.body 1
    let c := arg q.body 2
    let d := arg q.body 3
    (match k with
      | .go => 5 < a
      | .setRoom => 1 < d ∨ min 8388607 c < min 8388607 b
      | .setGuard => 3 < a
      | .setSourceMap => 1 < a ∨ ∃ j, 1 ≤ j ∧ j ≤ 17 ∧ 255 < arg q.body j ∧ arg q.body j ≠ 268435455
      | .selectSource | .selectBank | .setMute | .clearBank | .copyBank | .setTrims => 1 < a
      | .selectFormat | .clearProfile | .setProfileParams | .timerStop => 3 < a
      | .setFormatEntry => 3 < a ∨ 1 < b ∨ 3 < c ∨ ∃ j, 3 ≤ j ∧ j ≤ 18 ∧
          (19 < arg q.body j ∧ arg q.body j ≠ 268435455 ∨ b = 0 ∧ 16 ≤ arg q.body j ∧ arg q.body j ≤ 19)
      | .loadProfileRow | .readProfile => 3 < a ∨ 3 < b
      | .loadFaderLaw => 100 < a ∨ b = 0 ∨ 64 < b ∨ 101 < a + b
      | .loadSections => 1 < a ∨ 15 < b ∨ c = 0 ∨ 8 < c ∨ d = 0 ∨ 8 < d ∨ 9 < c + d
      | .setAlarmEntry => a % 65536 = 0
      | .ackAlarm => a ≠ 268435455 ∧ (16 < a ∨ (a < 16 ∧ 3 < b) ∨ (a = 16 ∧ b ≠ 4))
      | .cueGo => a = 0 ∨ 9999 < a
      | .timerStart => 3 < a ∨ 2 < b ∨ 1 < d ∨ arg q.body 4 = 0 ∨ 9999 < arg q.body 4
      | .setContactOwner => 1 < a ∨ (a = 0 ∧ 15 < b) ∨ (a = 1 ∧ 23 < b) ∨ (11 < c ∧ c ≠ 268435455)
      | .setContact => 23 < a ∨ 1 < b
      | .readCounts => b = 0 ∨ 28 < b ∨ 256 < a + b
      | .readAlarms => 47 < a ∨ b = 0 ∨ 8 < b
      | .readCues => 1 < a ∨ 127 < b ∨ c = 0 ∨ 4 < c
      | .readBank => 1 < a ∨ 15 < b
      | .readPart | .readRoom | .readMeters | .readContacts | .setGain | .maskAlarms | .cueDraftClear | .cueDraftAppend
      | .cueCommit | .cueRewind | .engineRestart => False) →
    exec i s = .next (s.repliedTo q .badField [])

/-! ### Reads (R4, R37, R80, R105, R120, R141, R149, R186, R211) -/

/-- Each of the nine reads, taken and in range, is answered OK with its fields and changes nothing but the reply holder. READ_ROOM
gives the room record with the last rack word and, while a sequence is in flight, its count, which is the step of a path ramp, and the
proof position (R3, R4), then what the other chapters add: both maps (R38), the timecode state (R43), the gain and a fade in flight (R60),
the dip (R65), the format table (R69), the decode state (R81), the counts of the banks (R90), the commitment, its two terms and the
demand, which is 0 outside LIVE and PARKED (R116), the cursor, the base and the two lengths (R150), and the timers (R165). A cue entry
travels in its words of R216, every ignored bit at 0.

Where the spec does not spell it out, the order of the fields, the codes of the halt cause, the slots of the dip and the output map of
READ_ROOM, the leading count of READ_COUNTS, the room part and the one-bit state of READ_ALARMS, the level codes of the contacts and
the tag codes of READ_BANK are the model's reading (assumption 9, DEDUCED). -/
def Obligations.ReadsAnswer : Prop :=
  let timers (rm : RoomRec) : List Fld := rm.timers.toList.flatMap fun t => joinFields
    [[.bool t.running, .bits 2 t.unit.code, .bits 16 t.count, .bool t.rep], Fld.opt 14 t.target, [.bits 32 t.remaining]]
  (∀ (s : State) (h : Header) (r : Room) (a b c : Payload), s.listening →
    (namesNone h →
      exec (.readPart h []) s = .next (s.replied h .readPart .ok
        [.bits 7 82, .bits 13 4630, .bits 1 1, .bits 4 12, .bits 11 1280, .bits 11 s.committedTotal,
          .bits 1 (if s.store = .ready then 1 else 0), .bool s.restart.isSome, .bits 1 (if s.supply then 1 else 0),
          .bits 32 s.blockNumber.toNat, .bits 2 s.mgmt.queue.length, .bits 6 s.mgmt.notices.length])) ∧
    (s.readable → namesRoom h r →
      let rm := s.room r
      let p := rm.path
      let lane (l : Option Lane) : List Fld := Fld.opt 8 (l.map (·.val))
      let map (m : SourceMap) : List Fld := joinFields [m.prog.toList.flatMap lane, lane m.tc]
      let outSrc (x : OutSrc) : List Fld := match x with
        | .program c => [.bits 1 0, .bits 5 c.val]
        | .decode o => [.bits 1 0, .bits 5 o.code]
        | .none => [.bits 1 1, .bits 5 0]
      let format (e : FormatEntry) : List Fld :=
        joinFields [[.bits 1 e.mode.code, .bits 2 e.profile.val], e.map.toList.flatMap outSrc]
      let count : Option Nat := if p.phase = .none then none else some ((p.ramp.map (·.n)).getD p.seqCount)
      let dipStep : Option Nat := if rm.dip.stage = .idle ∨ rm.dip.step = 0 then none else some rm.dip.step
      exec (.readRoom h []) s = .next (s.replied h .readRoom .ok (joinFields
        [[.bits 3 p.state.code, .bits 3 p.phase.code, .bool p.proven, .bits 16 p.fitted.toNat, .bits 23 p.proofMin,
            .bits 23 p.proofMax, .bits 1 p.policy.code],
          p.record.toList.flatMap fun e => [.bits 2 e.result.code, .bits 2 e.attempts],
          [.bits 1 p.halt.code, .bits 17 p.p, .bits 2 rm.activeFormat.val, .bits 1 rm.activeSource.code,
            .bits 1 rm.bankInService.code, .bits 7 rm.gain.step.val, .bool rm.gain.mute, .bits 2 rm.guard.val],
          [.bool p.lastRack.present, .bool p.lastRack.wake, .bool p.lastRack.valid, .bits 23 p.lastRack.level],
          Fld.opt 14 count,
          match p.proofPos with
            | some pos => [.bits 1 0, .bits 4 pos.chan.val, .bits 2 pos.attempt]
            | none => [.bits 1 1, .bits 4 0, .bits 2 0],
          map rm.main, map rm.spare,
          [.bits 2 rm.tc.state.code], Fld.opt 24 rm.tc.last,
          [.bits 17 rm.gain.g],
          match rm.gain.fade with
            | some f => [.bits 1 0, .bits 17 f.g0, .bits 17 f.g1, .bits 22 f.len, .bits 22 f.n]
            | none => [.bits 1 1, .bits 17 0, .bits 17 0, .bits 22 0, .bits 22 0],
          [.bits 2 rm.dip.stage.code], Fld.opt 8 dipStep, [.bits 17 rm.dip.d], Fld.opt 2 (rm.dip.fmtSlot.map (·.val)),
          Fld.opt 1 (rm.dip.srcSlot.map Source.code), Fld.opt 1 (rm.dip.bankSlot.map BankName.code), [.bool rm.dip.followOn],
          rm.formats.toList.flatMap format,
          [.bits 24 rm.decode.eL.toNat, .bits 24 rm.decode.eR.toNat, .bits 24 rm.decode.eS.toNat, .bits 24 rm.decode.eD.toNat,
            .bits 6 (rm.decode.lr % 64).toNat, .bits 6 (rm.decode.cs % 64).toNat],
          [.bits 8 rm.bankA.active, .bits 8 rm.bankA.rejected, .bits 8 rm.bankB.active, .bits 8 rm.bankB.rejected],
          [.bits 8 rm.commitment, .bits 6 (if ∃ i : Fin 4, rm.formats[i].mode = .mx4 then 40 else 0),
            .bits 8 (max rm.bankA.active rm.bankB.active),
            .bits 8 (if p.state = .live ∨ p.state = .parked then rm.demand else 0)],
          [.bits 8 rm.cursor, .bits 8 (baseOf rm.list), .bits 8 rm.list.length, .bits 8 rm.draft.length],
          timers rm]))) ∧
    (s.readable → namesNone h → 0 < b.toNat → b.toNat ≤ 28 → a.toNat + b.toNat ≤ 256 →
      let lanes := (List.finRange 256).filter fun l => decide (a.toNat ≤ l.val ∧ l.val < a.toNat + b.toNat)
      exec (.readCounts h [a, b]) s = .next (s.replied h .readCounts .ok (joinFields
        [[.bits 5 b.toNat],
          lanes.flatMap fun l =>
            [.bits 32 s.lanes[l].checkErr.toNat, .bits 32 s.lanes[l].usedErr.toNat, .bool (s.usesLane l)],
          [.bits 32 s.checkTotal.toNat, .bits 32 s.mgmt.malformed.toNat, .bits 32 s.mgmt.overflow.toNat,
            .bits 32 s.mgmt.discardTotal.toNat]]))) ∧
    (s.readable → namesRoom h r →
      exec (.readMeters h []) s = .next (s.replied h .readMeters .ok (joinFields
        [(s.room r).meters.toList.flatMap fun m => [.bits 24 m.lastP, .bits 13 m.lastC, .bool m.lastLoss],
          Fld.opt 32 ((s.room r).lastEval.map (·.toNat))]))) ∧
    (∀ which : Option Room, s.readable → h.room.toNat = (which.map (·.val)).getD 15 → a.toNat ≤ 47 → 0 < b.toNat →
      b.toNat ≤ 8 →
      let part := s.alarms.zipIdx.filter fun x => decide (which = none ∨ which = some x.1.room)
      let shown := (part.drop a.toNat).take b.toNat
      let entry (x : AlarmEntry × Nat) : List Fld := joinFields
        [[.bits 4 x.1.room.val], condFields x.1.cond,
          [.bits 1 (if x.1.active then 0 else 1), .bits 32 x.1.firstRaised.toNat, .bits 32 x.1.lastRaised.toNat,
            .bits 8 x.1.count, .bits 24 x.1.p, .bits 6 x.2]]
      let named (rm : RoomRec) : List Fld := joinFields
        [[.bits 4 rm.mask.kinds.toNat, .bits 13 rm.mask.remaining, .bits 16 rm.unlisted.toNat],
          allConds.flatMap fun x => [.bits 2 (rm.cond x).phase.code, .bits 13 (rm.cond x).run, .bool (rm.cond x).unlisted]]
      exec (.readAlarms h [a, b]) s = .next (s.replied h .readAlarms .ok (joinFields
        [[.bits 6 part.length, .bits 4 shown.length], shown.flatMap entry,
          match which with | none => [] | some r => named (s.room r)]))) ∧
    (s.readable → namesRoom h r → a.toNat ≤ 1 → b.toNat ≤ 127 → 0 < c.toNat → c.toNat ≤ 4 →
      let l := if a.toNat = 0 then (s.room r).list else (s.room r).draft
      let shown := (l.zipIdx.drop b.toNat).take c.toNat
      let entry (x : Cue × Nat) : List Fld := joinFields [x.1.words.map .word, [.bits 7 x.2]]
      exec (.readCues h [a, b, c]) s = .next (s.replied h .readCues .ok (joinFields
        [[.bits 8 (s.room r).list.length, .bits 8 (s.room r).draft.length, .bits 10 s.cueUsed,
            .bits 8 (s.room r).cursor, .bits 8 (baseOf (s.room r).list)],
          timers (s.room r), [.bits 3 shown.length], shown.flatMap entry]))) ∧
    (∀ (n : BankName) (k : Chan), s.readable → namesRoom h r → BankName.ofCode a.toNat = some n → b.toNat = k.val →
      let bk := (s.room r).bank n
      let slot (x : SlotRec) : List Fld :=
        [.coef x.coefs.b0, .coef x.coefs.b1, .coef x.coefs.b2, .coef x.coefs.a1, .coef x.coefs.a2, .bits 2 x.tag.code]
      exec (.readBank h [a, b]) s = .next (s.replied h .readBank .ok (joinFields
        [bk.chans[k].slots.toList.flatMap slot,
          [.bits 17 bk.chans[k].trim, .bits 8 bk.active, .bits 8 bk.rejected,
            .bool (decide ((s.room r).bankInService = n)), .bool (decide ((s.room r).dip.bankSlot = some n))]]))) ∧
    (∀ (p : Fin 4) (row : Row), s.readable → namesNone h → a.toNat = p.val → Row.ofCode b.toNat = some row →
      let x := s.profiles[p]
      exec (.readProfile h [a, b]) s = .next (s.replied h .readProfile .ok (joinFields
        [[.bits 2 x.stateCode, .bits 4 x.loaded.toNat, .bits 24 x.floor, .bits 4 x.attack, .bits 4 x.release],
          (x.row row).toList.flatMap fun c => [.coef c.1, .coef c.2],
          (List.finRange 12).map fun r => .bool ((s.room r).holdsProfile p)]))) ∧
    (s.readable → namesNone h →
      let owner (o : Option Room) : List Fld := Fld.opt 4 (o.map (·.val))
      let input (c : ContactIn) : List Fld :=
        joinFields [owner c.owner, [.bits 1 (if c.stable then 0 else 1), .bits 10 c.run, .bits 16 c.edges.toNat]]
      let last (l : LastSet) : List Fld :=
        match l with
        | .none => [.bits 2 0]
        | .request g => [.bits 2 1, .bits 6 g.toNat]
        | .cue r n => [.bits 2 2, .bits 4 r.val, .bits 14 n]
      exec (.readContacts h []) s = .next (s.replied h .readContacts .ok (joinFields
        [s.inputs.toList.flatMap input,
          s.outputs.toList.flatMap fun o => joinFields [owner o.owner, [.bool o.on], last o.lastSet],
          s.inputs.toList.map fun c => .bits 1 (if c.line then 0 else 1)])))) ∧
  (∀ c : Cue,
    let bit (yes : Bool) : Nat := if yes then 1 else 0
    let trigger : Nat := match c.trigger with
      | .at f => f
      | .alarm k chan => 1 * 2 ^ 26 + 16 * chan.code + k.code
      | .contact i e => 2 * 2 ^ 26 + 256 * e.code + i.val
      | .manual => 3 * 2 ^ 26
    let action (x : Action) : List Nat := match x with
      | .setFormat i => [1 * 2 ^ 24 + i.val, 0]
      | .setSource m => [2 * 2 ^ 24 + m.code, 0]
      | .selectBank n => [3 * 2 ^ 24 + n.code, 0]
      | .fade step ms => [4 * 2 ^ 24 + step.toNat, ms.toNat]
      | .mute yes => [5 * 2 ^ 24 + bit yes, 0]
      | .mask kinds n => [6 * 2 ^ 24 + kinds.toNat, n.toNat]
      | .contact o on => [7 * 2 ^ 24 + o.val, bit on]
      | .go t => [8 * 2 ^ 24 + t.code, 0]
      | .timerStart t unit n rep target =>
        [9 * 2 ^ 24 + target * 2 ^ 7 + bit rep * 2 ^ 6 + unit.code * 2 ^ 4 + t.toNat, n.toNat]
      | .timerStop t => [10 * 2 ^ 24 + t.toNat, 0]
    c.words = (c.actions.length * 2 ^ 20 + c.gate.val * 2 ^ 16 + c.number) :: trigger :: c.actions.flatMap action)

/-! ### The outbound sender (R191, R203) -/

/-- A frame continues the message being sent; an idle sender begins the reply before any notice, and a notice leaves its queue as
it is chosen; with nothing to send the slots are EMPTY. All four slots carry the hold mark when four requests wait.

The frames of the first sample period after a full reset carry EMPTY words with hold mark no (R209).

The reply holder empties as the last word of its reply leaves, and the next request is taken in that event (R193, R203).

Every frame is the words of four slots filled one after another, under the one hold mark that is taken as the frame is formed. A slot
continues the message in hand, ends a notice, ends a reply, or, with none in hand, begins the reply in the holder, or the oldest notice,
or is EMPTY (R191, R203). A frame that is commanded with no sample period open is the next period's (assumption 1).

A slot word has its form in bits 31:30, the hold mark in bit 29, its payload, which of an EMPTY word is 0, in bits 27:0, and the check
bit that makes the ones of its 32 bits even (R191, R214). A reply is its START word, its header and its body; a notice is its START word,
its header, the three words of the snapshot where it names a room, and the words of its own fields (R202, R204, R217). Fields are packed into
one stream of bits from bit 0 of the first word on, one after the other, save those that start a fresh word, and the bits after the last
are 0 (R217). The codes are those of R217 and of Tables 11-2 and 11-3. That SUPPLY carries 1 for asserted is the model's reading (assumption 9,
DEDUCED). -/
def Obligations.OutboundSenderFills : Prop :=
  (∀ s : State, exec .outboundFeedFrame s = exec .outboundFeedFrame s.openPeriod) ∧
  (∀ s : State, s.periodOpen = true → s.outFresh = false →
    let hold := decide (s.mgmt.queue.length = 4)
    let o0 := s.fillSlot
    let o1 := o0.1.fillSlot
    let o2 := o1.1.fillSlot
    let o3 := o2.1.fillSlot
    exec .outboundFeedFrame s = .next { o3.1 with
      outFrame := #v[outWord hold o0.2, outWord hold o1.2, outWord hold o2.2, outWord hold o3.2] }) ∧
  (∀ s : State,
    (∀ (isReply : Bool) (w v : OutWord) (rest : List OutWord), s.mgmt.sending = some ⟨isReply, w :: v :: rest⟩ →
      s.fillSlot = ({ s with mgmt := { s.mgmt with sending := some ⟨isReply, v :: rest⟩ } }, some w)) ∧
    (∀ w : OutWord, s.mgmt.sending = some ⟨false, [w]⟩ →
      s.fillSlot = ({ s with mgmt := { s.mgmt with sending := none } }, some w)) ∧
    (∀ m : Reply, s.mgmt.sending = none → s.mgmt.holder = some m →
      s.fillSlot = ({ s with mgmt := { s.mgmt with sending := some ⟨true, m.message⟩ } } : State).fillSlot) ∧
    (∀ (n : Notice) (ns : List Notice), s.mgmt.sending = none → s.mgmt.holder = none → s.mgmt.notices = n :: ns →
      s.fillSlot = ({ s with mgmt := { s.mgmt with notices := ns, sending := some ⟨false, n.message⟩ } } : State).fillSlot) ∧
    (s.mgmt.sending = none → s.mgmt.holder = none → s.mgmt.notices = [] → s.fillSlot = (s, none))) ∧
  (∀ s : State, s.periodOpen = true → s.outFresh = true → exec .outboundFeedFrame s = .next { s with
    outFrame := #v[outWord false none, outWord false none, outWord false none, outWord false none] }) ∧
  (∀ s : State, s.periodOpen = true → s.outFresh = false →
    let hold := decide (s.mgmt.queue.length = 4)
    (∀ (isReply : Bool) (w0 w1 w2 w3 w4 : OutWord) (rest : List OutWord),
      s.mgmt.sending = some ⟨isReply, w0 :: w1 :: w2 :: w3 :: w4 :: rest⟩ →
      exec .outboundFeedFrame s = .next { s with
        mgmt := { s.mgmt with sending := some ⟨isReply, w4 :: rest⟩ }
        outFrame := #v[outWord hold (some w0), outWord hold (some w1), outWord hold (some w2), outWord hold (some w3)] }) ∧
    (∀ (m : Reply) (w0 w1 w2 w3 w4 : OutWord) (rest : List OutWord), s.mgmt.sending = none → s.mgmt.holder = some m →
      m.message = w0 :: w1 :: w2 :: w3 :: w4 :: rest →
      exec .outboundFeedFrame s = .next { s with
        mgmt := { s.mgmt with sending := some ⟨true, w4 :: rest⟩ }
        outFrame := #v[outWord hold (some w0), outWord hold (some w1), outWord hold (some w2), outWord hold (some w3)] }) ∧
    (∀ (n : Notice) (ns : List Notice) (w0 w1 w2 w3 w4 : OutWord) (rest : List OutWord), s.mgmt.sending = none →
      s.mgmt.holder = none → s.mgmt.notices = n :: ns → n.message = w0 :: w1 :: w2 :: w3 :: w4 :: rest →
      exec .outboundFeedFrame s = .next { s with
        mgmt := { s.mgmt with notices := ns, sending := some ⟨false, w4 :: rest⟩ }
        outFrame := #v[outWord hold (some w0), outWord hold (some w1), outWord hold (some w2), outWord hold (some w3)] }) ∧
    (s.mgmt.sending = none → s.mgmt.holder = none → s.mgmt.notices = [] →
      exec .outboundFeedFrame s = .next { s with
        outFrame := #v[outWord hold none, outWord hold none, outWord hold none, outWord hold none] })) ∧
  (∀ (s : State) (w : OutWord), s.mgmt.sending = some ⟨true, [w]⟩ →
    (s.mgmt.queue = [] →
      s.fillSlot = ({ s with mgmt := { s.mgmt with sending := none, holder := none } }, some w)) ∧
    ∀ (q : Request) (rest : List Request), s.mgmt.queue = q :: rest →
      let idle : State := { s with mgmt := { s.mgmt with sending := none, holder := none, queue := rest } }
      s.fillSlot = ((idle.answer q).1.repliedTo q (idle.answer q).2.1 (idle.answer q).2.2, some w)) ∧
  (∀ (hold : Bool) (x : Option OutWord),
    let w := (outWord hold x).toNat
    w / 2 ^ 30 = (match x with | none => 0 | some (true, _) => 1 | some (false, _) => 2) ∧
    w.testBit 29 = hold ∧ w % 2 ^ 28 = (match x with | none => 0 | some (_, p) => p.toNat) ∧
    (List.range 32).countP (fun i => w.testBit i) % 2 = 0) ∧
  (∀ m : Reply, m.message =
    (true, BitVec.ofNat 28 (m.originator.toNat + 2 ^ 8 * m.body.length)) ::
      (false, BitVec.ofNat 28 (m.kind.toNat + 2 ^ 6 * m.result.code + 2 ^ 11 * m.tag.toNat)) :: m.body.map fun w => (false, w)) ∧
  (∀ n : Notice,
    let cond (c : CondId) : List Fld := match c with
      | .level k x => [.bits 5 k.val, .bits 3 x.code]
      | .rack => [.bits 5 16, .bits 3 4]
    let trigger (t : Trigger) : List Fld := match t with
      | .at f => [.bits 2 0, .bits 24 f]
      | .alarm k c => [.bits 2 1, .bits 3 k.code, .bits 5 c.code]
      | .contact i e => [.bits 2 2, .bits 4 i.val, .bits 1 e.code]
      | .manual => [.bits 2 3]
    let cause (c : Cause) : List Fld := match c with
      | .timecode jump f => [.bits 3 0, .bool jump, .bits 24 f]
      | .alarm x => .bits 3 1 :: cond x
      | .contact i e => [.bits 3 2, .bits 4 i.val, .bits 1 e.code]
      | .cueGo o => [.bits 3 3, .bits 6 o.toNat]
      | .timer t => [.bits 3 4, .bits 2 t.val]
    let own : Nat × List Fld := match n.body with
      | .roomState left => (1, [.bits 3 left.code])
      | .rackFound => (2, [])
      | .rackGone left => (3, [.bits 3 left.code])
      | .rackWake => (4, [])
      | .proofDone proven record =>
        (5, .bool proven :: record.toList.flatMap fun e => [.bits 2 e.result.code, .bits 2 e.attempts])
      | .alarmRaised c p clips count => (6, cond c ++ [.bits 24 p, .bits 13 clips, .bool count.isSome] ++ Fld.opt 8 count)
      | .alarmCleared c listed block => (7, cond c ++ [.bool listed, .bits 32 block.toNat])
      | .alarmListFull c unlisted => (8, cond c ++ [.bits 16 unlisted.toNat])
      | .cueFired number t c => (10, .bits 14 number :: (trigger t ++ cause c))
      | .cueFailed number c failed =>
        (11, .bits 14 number :: (cause c ++ .bits 3 failed.length :: failed.flatMap fun x => [.bits 3 x.1, .bits 5 x.2.code]))
      | .timerOrphan t target => (12, [.bits 2 t.val, .bits 14 target])
      | .timecode before after lastBefore lastAfter jump =>
        (13, [.bits 2 before.code, .bits 2 after.code] ++ Fld.opt 24 lastBefore ++ Fld.opt 24 lastAfter ++ [.bool jump])
      | .bankSwapped left entered => (14, [.bits 1 left.code, .bits 1 entered.code])
      | .supply asserted => (15, [.bool asserted])
      | .contactIn i e owner edges =>
        (16, [.bits 4 i.val, .bits 1 e.code] ++ Fld.opt 4 (owner.map (·.val)) ++ [.bits 16 edges.toNat])
      | .queueOverflow q => (17, [.bits 6 q.originator.toNat, .bits 2 q.level.toNat, .bits 6 q.kind.toNat,
          .bits 4 q.room.toNat, .bits 16 q.tag.toNat])
      | .storeReady => (18, [])
      | .restarted => (19, [])
    let snapshot : List Payload := match n.room with
      | some (_, x) =>
        [BitVec.ofNat 28 (x.state.code + 2 ^ 3 * x.phase.code + 2 ^ 7 * x.format.val + 2 ^ 9 * x.source.code +
            2 ^ 10 * x.bank.code + 2 ^ 11 * x.tc.code), BitVec.ofNat 28 x.g, BitVec.ofNat 28 (x.last.getD (2 ^ 24))]
      | none => []
    let words := snapshot ++ pack own.2
    n.message = (true, BitVec.ofNat 28 (2 ^ 8 * words.length + 2 ^ 16)) ::
      (false, BitVec.ofNat 28 (own.1 + 2 ^ 5 * ((n.room.map (·.1.val)).getD 15) + 2 ^ 9 * n.dropped)) ::
        words.map fun w => (false, w)) ∧
  (∀ fs : List Fld,
    let stream : List Bool := fs.foldl (fun sent f => match f with
      | .bits width v => sent ++ (List.range width).map v.testBit
      | .word v => sent ++ List.replicate ((sent.length + 27) / 28 * 28 - sent.length) false ++
          (List.range 28).map v.testBit) []
    (pack fs).length = (stream.length + 27) / 28 ∧
    ∀ i j, i < (pack fs).length → j < 28 → ((pack fs).getD i 0).getLsbD j = stream.getD (28 * i + j) false) ∧
  (∀ (width n : Nat) (yes : Bool) (x : Int),
    Fld.opt width none = [.bits 1 1, .bits width 0] ∧ Fld.opt width (some n) = [.bits 1 0, .bits width n] ∧
    Fld.bool yes = .bits 1 (if yes then 1 else 0) ∧ Fld.coef x = .word (x % 2 ^ 24).toNat) ∧
  [RoomState.off, .listen, .ready, .prove, .live, .parked, .halted].map (·.code) = [0, 1, 2, 3, 4, 5, 6] ∧
  [Phase.none, .settling, .debouncing, .proving, .rampingIn, .rampingOutPark, .rampingOutOff, .supplyRamp].map (·.code) =
    [0, 1, 2, 3, 4, 5, 6, 7] ∧
  [TcState.absent, .running, .stopped, .lost].map (·.code) = [0, 1, 2, 3] ∧
  [Source.main, .spare].map (·.code) = [0, 1] ∧ [BankName.a, .b].map (·.code) = [0, 1] ∧
  [LevelKind.silence, .over, .clip, .loss].map (·.code) = [0, 1, 2, 3] ∧
  [Result.ok, .malformed, .badRoom, .notReady, .denied, .supplyLow, .badField, .wrongState, .seqBusy, .inService, .bankBusy,
    .overBudget, .storeFull, .order, .noSuchCue, .notOwner].map (·.code) = [0, 1, 2, 3, 4, 5, 6, 8, 9, 10, 11, 12, 13, 14, 15, 16]

/-! ### Lanes, sources and timecode (02) -/

/-- A frame whose slots are EMPTY: every lane takes its word by R32 to R34 and R36, used or not, and every programme channel of
every room takes its value from the active map (R35). A word is good when its valid marker is 1 and the ones in bits 25:0 are even, and
counts a check error when only the marker is so (R32, R213); a lane is used when the active map of some room names it (R34). The period opens first (assumption 1, DESIGN CHOICE), the maps
that are active as the frame is taken say which lanes are used and which values the channels take (assumption 8, DEDUCED), and the lanes
come ahead of the timecode (assumption 5, DESIGN CHOICE). Where every room's timecode is ABSENT nothing else changes.
A room that the command names in `order.later` reads none of its words yet: it does so when a SAMPLE_PERIOD of the period names it, or
else as the period closes or another frame comes, by the map that is active then, so that a source change taken before has the words of
the period read from the new lanes, programme and timecode. Those lanes then count their concealment, once a frame, the channels take
their values, the lane's hold value where the word is not good, and the room takes its timecode (R1, R34, R35, R41; assumption 18, DESIGN
CHOICE).

A sample period without a frame: every used lane is concealed and counted, no check error is counted, every programme
channel takes the hold value, and an assembly is broken (R31, R34, R35, R187, R189).

The four slot words of a frame reach the assembly in slot order, after the lanes and the timecode (assumption 5). A word's form says
what it is: 0 is EMPTY whatever its other bits, 3 is corrupt, and a START or DATA word is corrupt unless the ones of its 32 bits are
even (R31, R187, R214).

After the lanes and the values each room takes its timecode of the period, in the order of the command: the frame number in the 24 bits
of the word on the timecode lane of its active map, unsigned, where that word is good, and no value otherwise, as in a period without a
frame (R31, R44, R46, R48). A room whose timecode of the period has been taken, by a row of TIMECODE_LOSS or TIMECODE_STILL_EXPIRY ahead of
the frame, takes none (assumption 3, DESIGN CHOICE). -/
def Obligations.FeedFramesTakeLanes : Prop :=
  let takeOnce (u : State) (r : Room) (v : Option Nat) : State :=
    if (u.room r).tc.taken = true then u
    else (u.takeTimecode r v).modRoom r fun rm => { rm with tc := { rm.tc with taken := true } }
  let given (u : State) (ws : Vector Word 256) (r : Room) : Option Nat := match (u.room r).activeMap.tc with
    | some l => if laneGood ws[l] then some (ws[l].toNat % 16777216) else none
    | none => none
  (∀ (s : State) (ws : Vector Word 256) (slots : Vector Word 4) (order : FrameOrder),
    (∀ i : Fin 4, slotForm slots[i] = 0) → s.mgmt.asm.stage = .idle →
    let o := s.openPeriod.takeWaiting
    ∃ t, exec (.feedTrunkFrame ws slots order) s = .next t ∧
      (∀ l : Lane, t.lanes[l] =
        { hold := if laneGood ws[l] then laneSample ws[l] else o.lanes[l].hold
          mark := o.lanes[l].mark || laneGood ws[l]
          checkErr := if laneCheckError ws[l] then o.lanes[l].checkErr + 1 else o.lanes[l].checkErr
          usedErr := if o.usedBut order.later l && !laneGood ws[l] then o.lanes[l].usedErr + 1 else o.lanes[l].usedErr
          concealed := o.usedBut order.later l && !laneGood ws[l] }) ∧
      t.checkTotal = o.checkTotal + BitVec.ofNat 32 (checkErrors ws) ∧ t.waiting = order.later ∧ t.words = ws ∧
      (∀ (r : Room) (c : Chan), (t.room r).prog[c] =
        if r ∈ order.later then (o.room r).prog[c]
        else match (o.room r).activeMap.prog[c] with
          | none => 0
          | some l => if laneGood ws[l] then laneSample ws[l] else o.lanes[l].hold) ∧
      ((∀ r : Room, (o.room r).tc.state = .absent) →
        t = { o with
          lanes := t.lanes, checkTotal := t.checkTotal, rooms := t.rooms
          waiting := order.later, words := ws } ∧
        ∀ r : Room, t.room r = { o.room r with
          prog := (t.room r).prog, tc := { (o.room r).tc with taken := (t.room r).tc.taken } })) ∧
  (∀ (s : State) (order : FrameOrder),
    let o := s.openPeriod.takeWaiting
    ∃ t, exec (.missingFeedFrame order) s = .next t ∧
      (∀ l : Lane, t.lanes[l] = { o.lanes[l] with
        usedErr := if o.usedBut order.later l then o.lanes[l].usedErr + 1 else o.lanes[l].usedErr
        concealed := o.usedBut order.later l }) ∧
      t.checkTotal = o.checkTotal ∧ t.waiting = order.later ∧
      (∀ (r : Room) (c : Chan), (t.room r).prog[c] =
        if r ∈ order.later then (o.room r).prog[c]
        else match (o.room r).activeMap.prog[c] with
          | none => 0
          | some l => o.lanes[l].hold) ∧
      t.mgmt.asm.stage = .idle ∧
      t.mgmt.malformed = if s.mgmt.asm.stage = .idle then s.mgmt.malformed else s.mgmt.malformed + 1) ∧
  (∀ (s : State) (order : FrameOrder), exec (.missingFeedFrame order) s =
    .next ((s.openPeriod.intake (Vector.replicate 256 0#32) order).takeWord .empty)) ∧
  (∀ s : State, s.takeWaiting = s.waiting.foldl State.readWords s) ∧
  (∀ (s : State) (r : Room),
    (r ∉ s.waiting → s.readWords r = s) ∧
    (r ∈ s.waiting →
      let used (l : Lane) : Prop := (s.room r).activeMap.tc = some l ∨ ∃ c : Chan, (s.room r).activeMap.prog[c] = some l
      let conceals (l : Lane) : Prop := used l ∧ laneGood s.words[l] = false ∧ s.lanes[l].concealed = false
      ∃ u : State, s.readWords r = takeOnce u r (given s s.words r) ∧
        u = { s with waiting := s.waiting.filter (· ≠ r), lanes := u.lanes, rooms := u.rooms } ∧
        (∀ l : Lane,
          (conceals l → u.lanes[l] = { s.lanes[l] with usedErr := s.lanes[l].usedErr + 1, concealed := true }) ∧
          (¬conceals l → u.lanes[l] = s.lanes[l])) ∧
        (∀ q : Room, q ≠ r → u.room q = s.room q) ∧ u.room r = { s.room r with prog := (u.room r).prog } ∧
        ∀ c : Chan, (u.room r).prog[c] = match (s.room r).activeMap.prog[c] with
          | none => 0
          | some l => if laneGood s.words[l] then laneSample s.words[l] else s.lanes[l].hold)) ∧
  (∀ (s : State) (ws : Vector Word 256) (order : FrameOrder),
    let o := s.takeWaiting
    let lanes : Vector LaneRec 256 := Vector.ofFn fun l =>
      { hold := if laneGood ws[l] then laneSample ws[l] else o.lanes[l].hold
        mark := o.lanes[l].mark || laneGood ws[l]
        checkErr := if laneCheckError ws[l] then o.lanes[l].checkErr + 1 else o.lanes[l].checkErr
        usedErr := if o.usedBut order.later l && !laneGood ws[l] then o.lanes[l].usedErr + 1 else o.lanes[l].usedErr
        concealed := o.usedBut order.later l && !laneGood ws[l] }
    let valued : State := { o with
      lanes := lanes
      checkTotal := o.checkTotal + BitVec.ofNat 32 (checkErrors ws)
      rooms := Vector.ofFn fun r => if r ∈ order.later then o.room r else { o.room r with
        prog := Vector.ofFn fun c =>
          match (o.room r).activeMap.prog[c] with
          | none => 0
          | some l => lanes[l].hold }
      waiting := order.later
      words := ws }
    s.intake ws order =
      (visit order.rooms).foldl (fun (u : State) (r : Room) => if r ∈ order.later then u else takeOnce u r (given u ws r)) valued) ∧
  (∀ (s : State) (ws : Vector Word 256) (slots : Vector Word 4) (order : FrameOrder),
    exec (.feedTrunkFrame ws slots order) s =
      .next (((((s.openPeriod.intake ws order).takeWord (.ofWord slots[0])).takeWord (.ofWord slots[1])).takeWord
        (.ofWord slots[2])).takeWord (.ofWord slots[3]))) ∧
  (∀ w : Word,
    let form := w.toNat / 2 ^ 30
    let even := (List.range 32).countP (fun i => w.toNat.testBit i) % 2 = 0
    let payload : Payload := BitVec.ofNat 28 w.toNat
    (form = 0 → SlotWord.ofWord w = .empty) ∧ (form = 3 → SlotWord.ofWord w = .corrupt) ∧
    (form = 1 → even → SlotWord.ofWord w = .start payload) ∧ (form = 2 → even → SlotWord.ofWord w = .data payload) ∧
    (form = 1 ∨ form = 2 → ¬even → SlotWord.ofWord w = .corrupt)) ∧
  (∀ w : Word,
    let even := (List.range 26).countP (fun i => w.toNat.testBit i) % 2 = 0
    (laneGood w = true ↔ w.toNat.testBit 24 = true ∧ even) ∧ (laneCheckError w = true ↔ w.toNat.testBit 24 = true ∧ ¬even) ∧
    laneSample w = (w.toNat % 2 ^ 24 : Nat) - (if w.toNat.testBit 23 then 2 ^ 24 else 0 : Int)) ∧
  ∀ (s : State) (ws : Vector Word 256) (l : Lane),
    checkErrors ws = (List.finRange 256).countP (fun l => laneCheckError ws[l]) ∧
    (∀ later : List Room, s.usedBut later l = true ↔ ∃ r : Room, r ∉ later ∧
      ((s.room r).activeMap.tc = some l ∨ ∃ c : Chan, (s.room r).activeMap.prog[c] = some l)) ∧
    (s.usesLane l = true ↔ ∃ r : Room, (s.room r).activeMap.tc = some l ∨ ∃ c : Chan, (s.room r).activeMap.prog[c] = some l)

/-- A timecode value is a same event at the last frame, an advance one to three frames on, and a jump otherwise, also after
NONE (R45); its effect on the record, and that of a period without a value (R45, R46).

TIMECODE_LOSS: the period that brings the absence run to 2,400 makes the room LOST, with its TIMECODE notice (R46, R48).
TIMECODE_STILL_EXPIRY: the period that brings the still run to 6,000 makes it STOPPED (R45, R46, R48). Each is the room's timecode of
the period, taken ahead of the frame, and a period whose timecode has been taken brings neither about. Where the room still has to read
the period's frame, the row is that reading: it comes about when the word on the room's timecode lane, as its map stands, gives what the
row says, no value or the last frame, and otherwise changes nothing; so the period counts once (assumptions 3 and 18, DESIGN CHOICE).

A record that moves is announced by one TIMECODE notice where the state changes or the event is a jump, and by none otherwise (R48); a
room whose timecode is ABSENT takes no value, and a period without a value moves the record alone (R44, R46). -/
def Obligations.TimecodeMoves : Prop :=
  (∀ (s : State) (r : Room) (new : Timecode) (jump : Bool),
    let old := (s.room r).tc
    let u := s.modRoom r fun rm => { rm with tc := new }
    s.moveTimecode r new jump =
      if old.state ≠ new.state ∨ jump = true then
        u.notify r (.timecode old.state new.state old.last new.last jump)
      else u) ∧
  (∀ (s : State) (r : Room),
    ((s.room r).tc.state = .absent → ∀ v, s.takeTimecode r v = s) ∧
    ((s.room r).tc.state ≠ .absent → s.takeTimecode r none = s.moveTimecode r (s.room r).tc.missed false)) ∧
  (∀ (tc : Timecode) (f t : Nat),
    classify none t = .jump t ∧ classify (some f) f = .same ∧
    (t = f + 1 ∨ t = f + 2 ∨ t = f + 3 → classify (some f) t = .advance t) ∧
    (t < f ∨ f + 3 < t → classify (some f) t = .jump t) ∧
    tc.on (.advance t) = { tc with state := .running, last := some t, still := 0, absence := 0 } ∧
    tc.on (.jump t) = tc.on (.advance t) ∧
    (tc.state = .lost → tc.on .same = { tc with state := .running, still := 0, absence := 0 }) ∧
    (tc.state = .stopped → tc.on .same = { tc with absence := 0 }) ∧
    (tc.state = .running → tc.still < 5999 → tc.on .same = { tc with still := tc.still + 1, absence := 0 }) ∧
    (tc.state = .running → tc.still = 5999 → tc.on .same = { tc with state := .stopped, still := 6000, absence := 0 }) ∧
    (tc.state = .lost → tc.missed = tc) ∧
    (tc.state = .running ∨ tc.state = .stopped → tc.absence = 2399 →
      tc.missed = { tc with state := .lost, still := 0, absence := 2400 }) ∧
    (tc.state = .running → tc.absence < 2399 → tc.still = 5999 →
      tc.missed = { tc with state := .stopped, still := 6000, absence := tc.absence + 1 }) ∧
    (tc.state = .running → tc.absence < 2399 → tc.still < 5999 →
      tc.missed = { tc with still := tc.still + 1, absence := tc.absence + 1 }) ∧
    (tc.state = .stopped → tc.absence < 2399 →
      tc.missed = { tc with still := min 6000 (tc.still + 1), absence := tc.absence + 1 })) ∧
  (∀ (s : State) (r : Room), s.periodOpen = true → r ∉ s.waiting →
    ((s.room r).tc.state = .running ∨ (s.room r).tc.state = .stopped → (s.room r).tc.absence = 2399 →
      (s.room r).tc.taken = false →
      let lost : Timecode := { (s.room r).tc with state := .lost, still := 0, absence := 2400 }
      exec (.timecodeLoss r) s = .next
        (((s.modRoom r fun rm => { rm with tc := lost }).notify r
          (.timecode (s.room r).tc.state .lost (s.room r).tc.last (s.room r).tc.last false)).modRoom r
            fun rm => { rm with tc := { rm.tc with taken := true } })) ∧
    ∀ same : Bool, (s.room r).tc.state = .running → (s.room r).tc.still = 5999 → (s.room r).tc.taken = false →
      (if same then (s.room r).tc.last ≠ none else (s.room r).tc.absence < 2399) →
      let stopped : Timecode := { (s.room r).tc with
        state := .stopped, still := 6000, absence := if same then 0 else (s.room r).tc.absence + 1 }
      exec (.timecodeStillExpiry r same) s = .next
        (((s.modRoom r fun rm => { rm with tc := stopped }).notify r
          (.timecode .running .stopped (s.room r).tc.last (s.room r).tc.last false)).modRoom r
            fun rm => { rm with tc := { rm.tc with taken := true } })) ∧
  (∀ (s : State) (r : Room), s.periodOpen = true → r ∈ s.waiting →
    let tc := (s.room r).tc
    let given : Option Nat := match (s.room r).activeMap.tc with
      | some l => if laneGood s.words[l] then some (s.words[l].toNat % 16777216) else none
      | none => none
    (given ≠ none → exec (.timecodeLoss r) s = .next s) ∧
    (given = none → tc.state = .running ∨ tc.state = .stopped → tc.absence = 2399 → tc.taken = false →
      exec (.timecodeLoss r) s = .next (s.readWords r)) ∧
    ∀ same : Bool,
      (given ≠ (if same then tc.last else none) → exec (.timecodeStillExpiry r same) s = .next s) ∧
      (given = (if same then tc.last else none) → tc.state = .running → tc.still = 5999 → tc.taken = false →
        (if same then tc.last ≠ none else tc.absence < 2399) →
        exec (.timecodeStillExpiry r same) s = .next (s.readWords r))) ∧
  ∀ (s : State) (r : Room) (same : Bool), s.periodOpen = true → (s.room r).tc.taken = true →
    exec (.timecodeLoss r) s = .next s ∧ exec (.timecodeStillExpiry r same) s = .next s

/-- SET_SOURCE_MAP writes the seventeen entries of a map that is not the active one, and of the active one of a room in OFF,
where the timecode lane switches (R39, R47).

A switch of the timecode lane: from a lane to NONE the record is ABSENT, from NONE to a lane LOST with an absence run of 2,400, both with
a still run of 0; from a lane to another the absence run is 0, or 2,400 in LOST, and state and still run are kept; the last frame is kept in
each, and equal entries leave the record untouched (R47). -/
def Obligations.SourceMapWritten : Prop :=
  (∀ (s : State) (h : Header) (r : Room) (src : Source) (m : SourceMap) (body : List Payload), s.admits h r →
    body.length = 18 → Source.ofCode (arg body 0) = some src →
    (∀ c : Chan, belowOrNone 256 (arg body (1 + c.val)) = some m.prog[c]) → belowOrNone 256 (arg body 17) = some m.tc →
    (((s.room r).activeSource = src ∧ (s.room r).path.state ≠ .off) →
      exec (.setSourceMap h body) s = .next (s.replied h .setSourceMap .inService [])) ∧
    ((s.room r).activeSource ≠ src →
      exec (.setSourceMap h body) s = .next ((s.modRoom r fun rm =>
        if src = .main then { rm with main := m } else { rm with spare := m }).replied h .setSourceMap .ok [])) ∧
    ((s.room r).activeSource = src → (s.room r).path.state = .off →
      exec (.setSourceMap h body) s = .next ((s.modRoom r fun rm =>
        if src = .main then { rm with main := m, tc := rm.tc.switch rm.main.tc m.tc }
        else { rm with spare := m, tc := rm.tc.switch rm.spare.tc m.tc }).replied h .setSourceMap .ok []))) ∧
  (∀ (tc : Timecode) (old new : Option Lane), old = new → tc.switch old new = tc) ∧
  (∀ (tc : Timecode) (old : Lane), tc.switch (some old) none = { tc with state := .absent, still := 0, absence := 0 }) ∧
  (∀ (tc : Timecode) (new : Lane), tc.switch none (some new) = { tc with state := .lost, still := 0, absence := 2400 }) ∧
  ∀ (tc : Timecode) (old new : Lane), old ≠ new →
    (tc.state = .lost → tc.switch (some old) (some new) = { tc with absence := 2400 }) ∧
    (tc.state ≠ .lost → tc.switch (some old) (some new) = { tc with absence := 0 })

/-! ### Rooms and the output path (01) -/

/-- A rack word becomes the last rack word in every state (R8) and otherwise counts as the state and phase say: nothing in OFF,
HALTED, settling and the period in which settling ends; the debounce run; the rack absence run, also in PROVE with a word that
neither passes the attempt nor finds it over (R9, R15, R16, R18). A word judged for an attempt is of a period whose frame carries that
attempt's pilot, which the period keeps (R18; assumption 4, DEDUCED). A rise of wake in PARKED is announced (R13), ahead of the absence
run (assumption 4, DEDUCED). A word that comes with no sample period open opens the next one first (assumption 1). -/
def Obligations.RackWordCounts : Prop :=
(∀ (s : State) (r : Room) (w : Option Word), exec (.rackWord r w) s = exec (.rackWord r w) s.openPeriod) ∧
∀ (s : State) (r : Room) (w : Option Word), s.periodOpen = true →
    let p := (s.room r).path
    let word := RackWord.ofFrame w
    let sent := match p.proofPos with
      | some pos => if p.state = .prove ∧ p.nextAttempt = none ∧ 0 < p.seqCount then some (pos.chan, p.seqCount) else p.pilotSent
      | none => p.pilotSent
    (p.state = .off ∨ p.state = .halted ∨ (p.state = .listen ∧ (p.phase ≠ .debouncing ∨ p.debounceHeld = true)) →
      exec (.rackWord r w) s = .next (s.modPath r fun p => { p with lastRack := word, rackTaken := true })) ∧
    (p.state = .listen → p.phase = .debouncing → p.debounceHeld = false →
      (word.present = false →
        exec (.rackWord r w) s = .next (s.modPath r fun p => { p with lastRack := word, rackTaken := true, seqCount := 0 })) ∧
      (word.present = true → p.seqCount + 1 < 12000 →
        exec (.rackWord r w) s =
          .next (s.modPath r fun p => { p with lastRack := word, rackTaken := true, seqCount := p.seqCount + 1 }))) ∧
    (p.state = .ready ∨ p.state = .live ∨ (p.state = .parked ∧ (word.wake = false ∨ p.lastRack.wake = true)) ∨
        (p.state = .prove ∧ (p.nextAttempt ≠ none ∨ p.seqCount = 0 ∨ (p.seqCount < 1920 ∧
          (word.valid = false ∨ word.level < p.proofMin ∨ p.proofMax < word.level)))) →
      (word.present = true →
        exec (.rackWord r w) s =
          .next (s.modPath r fun p => { p with lastRack := word, rackTaken := true, rackAbsence := 0, pilotSent := sent })) ∧
      (word.present = false → p.rackAbsence + 1 < 2400 →
        exec (.rackWord r w) s =
          .next (s.modPath r fun p => { p with
            lastRack := word, rackTaken := true, rackAbsence := p.rackAbsence + 1, pilotSent := sent }))) ∧
    (p.state = .parked → word.wake = true → p.lastRack.wake = false → word.present = true ∨ p.rackAbsence + 1 < 2400 →
      exec (.rackWord r w) s = .next (((s.modPath r fun p => { p with lastRack := word, rackTaken := true }).notify r .rackWake).modPath r
        fun p => { p with rackAbsence := if word.present then 0 else p.rackAbsence + 1 }))

/-- A rack loss in LIVE or PARKED halts the room at once: p is 0, the ramp is gone, the cause is RACK_LOST and proven is no; its
channel conditions are QUIET, its ACTIVE channel entries CLEARED and its mask ended; no other room changes, nor anything else
of the room but for a dip in flight, which ends with every filled slot applied (R9, R12, R68, R137). It is announced by one ROOM_STATE with the state left (R7), beside
one RACK_WAKE where the word's wake is a rise in PARKED (R13) and one BANK_SWAPPED of a bank change waiting in a dip in flight (R68, R103),
with the snapshot after the change (R104). That RACK_WAKE comes ahead of the loss is the model's reading (assumption 4, DEDUCED), and that
BANK_SWAPPED comes after ROOM_STATE is its own choice (assumption 5, DESIGN CHOICE). RACK_WORD and RACK_LOSS take the same word alike; RACK_LOSS where
no word of the period has been taken (assumption 3, DESIGN CHOICE). -/
def Obligations.RackLossHalts : Prop :=
  ∀ (s : State) (r : Room) (w : Option Word), s.periodOpen = true →
    (s.room r).path.state = .live ∨ (s.room r).path.state = .parked → (RackWord.ofFrame w).present = false →
    2399 ≤ (s.room r).path.rackAbsence →
    ∃ t, exec (.rackWord r w) s = .next t ∧ ((s.room r).path.rackTaken = false → exec (.rackLoss r w) s = .next t) ∧ s.onlyRoom t r ∧
      t.room r = { (s.room r).leavingLive with
        path := { (s.room r).path with
          state := .halted, phase := .none, halt := .rackLost, p := 0, proven := false, ramp := none, rackAbsence := 0,
          seqCount := 0, proofPos := none, nextAttempt := none, debounceHeld := false,
          lastRack := RackWord.ofFrame w, rackTaken := true }
        conds := Vector.replicate 16 .quiet, mask := .none } ∧
      (let woke : Mgmt :=
        if (s.room r).path.state = .parked ∧ (RackWord.ofFrame w).wake = true ∧ (s.room r).path.lastRack.wake = false then
          s.mgmt.told r (s.room r) [.rackWake]
        else s.mgmt
       let swapped : List NoticeBody :=
        if (s.room r).path.state = .live ∧ (s.room r).dip.stage ≠ .idle then
          (s.room r).dip.bankSlot.toList.map fun n => .bankSwapped (s.room r).bankInService n
        else []
       t.mgmt = woke.told r (t.room r) (.roomState (s.room r).path.state :: swapped)) ∧
      t.alarms = s.alarms.map (fun e => if e.room = r ∧ e.cond ≠ .rack then { e with active := false } else e)

/-- A rack loss in READY or PROVE returns the room to LISTEN in phase debouncing with proven no and the record kept, and raises
ROOM_STATE and then RACK_GONE, both with the snapshot taken after the change (R7, R10, R11). RACK_WORD and RACK_LOSS take the same word
alike; RACK_LOSS where no word of the period has been taken (assumption 3, DESIGN CHOICE). -/
def Obligations.RackLossReturnsToListen : Prop :=
  ∀ (s : State) (r : Room) (w : Option Word) (left : RoomState), s.periodOpen = true →
    left = .ready ∨ left = .prove → (s.room r).path.state = left → (RackWord.ofFrame w).present = false →
    2399 ≤ (s.room r).path.rackAbsence → s.mgmt.notices.length ≤ 30 →
    ∃ t, exec (.rackWord r w) s = .next t ∧ ((s.room r).path.rackTaken = false → exec (.rackLoss r w) s = .next t) ∧ s.onlyRoom t r ∧ t.alarms = s.alarms ∧
      t.room r = { s.room r with path := { (s.room r).path with
        state := .listen, phase := .debouncing, proven := false, rackAbsence := 0, seqCount := 0, proofPos := none,
        nextAttempt := none, ramp := none, debounceHeld := false, lastRack := RackWord.ofFrame w,
        rackTaken := true } } ∧
      t.mgmt = { s.mgmt with
        notices := s.mgmt.notices ++ [⟨some (r, (t.room r).snapshot), .roomState left, s.mgmt.dropCount⟩,
          ⟨some (r, (t.room r).snapshot), .rackGone left, 0⟩]
        dropCount := 0 }

/-- The rack word that brings the debounce run to 12,000 makes the room READY and raises ROOM_STATE and then RACK_FOUND (R16,
R7). RACK_WORD and DEBOUNCE_COMPLETE take it alike; DEBOUNCE_COMPLETE where no word of the period has been taken (assumption 3, DESIGN
CHOICE). -/
def Obligations.DebounceCompletes : Prop :=
  ∀ (s : State) (r : Room) (w : Word), s.periodOpen = true → (s.room r).path.state = .listen →
    (s.room r).path.phase = .debouncing → (s.room r).path.debounceHeld = false → 11999 ≤ (s.room r).path.seqCount → (RackWord.ofWord w).present = true →
    s.mgmt.notices.length ≤ 30 →
    ∃ t, exec (.rackWord r (some w)) s = .next t ∧
      ((s.room r).path.rackTaken = false → exec (.debounceComplete r w) s = .next t) ∧ s.onlyRoom t r ∧ t.alarms = s.alarms ∧
      t.room r = { s.room r with path := { (s.room r).path with
        state := .ready, phase := .none, seqCount := 0, proofPos := none, nextAttempt := none, ramp := none,
        debounceHeld := false, lastRack := RackWord.ofWord w, rackTaken := true } } ∧
      t.mgmt = { s.mgmt with
        notices := s.mgmt.notices ++ [⟨some (r, (t.room r).snapshot), .roomState .listen, s.mgmt.dropCount⟩,
          ⟨some (r, (t.room r).snapshot), .rackFound, 0⟩]
        dropCount := 0 }

/-- A pilot attempt fails in its period 1,920, of which every rack word may still pass it: PILOT_ATTEMPT_TIMEOUT takes the failure
once that period is over (the model's own choice, assumption 3), and a rack word of the period that does not pass takes it at once. A word judged for the attempt leaves the period its pilot, also where it ends the proof
(R18; assumption 4, DEDUCED). A retry on the same channel is set for the following period; a third failure
makes the channel FAILED, which ends the proof with proven no under STOP_AT_FIRST and after the last fitted channel, and under
TEST_ALL is followed by the next higher fitted channel in the next period (R18, R19).

A return within the proof limits passes the attempt, whether or not the word shows the rack present: the channel is PASSED, and
the next higher fitted channel follows in the next period, or, after the last, the room is READY with proven yes exactly when
every fitted channel is PASSED (R18, R19). Its presence is counted beside it (R9), ahead of the return as the model reads it
(assumption 4, DEDUCED). A proof that ends is announced by ROOM_STATE and then PROOF_DONE with proven and the record, both with the
snapshot after the change; no other event of an attempt is announced (R7, R19). -/
def Obligations.PilotAttemptEnds : Prop :=
  (∀ (s : State) (r : Room) (k : Chan) (n : Nat), (s.room r).path.state = .prove → (s.room r).path.nextAttempt = none →
    (s.room r).path.proofPos = some ⟨k, n⟩ → 1920 ≤ (s.room r).path.seqCount → s.periodOpen = false →
    (n < 3 → exec (.pilotAttemptTimeout r) s = .next (s.modPath r fun p => { p with nextAttempt := some ⟨k, n + 1⟩ })) ∧
    (3 ≤ n →
      let rec' := (s.room r).path.record.set k.val { (s.room r).path.record[k] with result := .failed } k.isLt
      ((s.room r).path.isFitted k = true →
        (s.room r).path.policy = .stopAtFirst ∨ (∀ j : Chan, k < j → (s.room r).path.isFitted j = false) →
        ∃ t, exec (.pilotAttemptTimeout r) s = .next t ∧ s.onlyRoom t r ∧ t.alarms = s.alarms ∧
          t.room r = { s.room r with path := { (s.room r).path with
            state := .ready, phase := .none, proven := false, seqCount := 0, proofPos := none, nextAttempt := none,
            ramp := none, debounceHeld := false, record := rec' } } ∧
          t.mgmt = s.mgmt.told r (t.room r) [.roomState .prove, .proofDone false rec']) ∧
      ((s.room r).path.policy = .testAll → ∀ j : Chan, k < j → (s.room r).path.isFitted j = true →
        (∀ i : Chan, k < i → i < j → (s.room r).path.isFitted i = false) →
        exec (.pilotAttemptTimeout r) s =
          .next (s.modPath r fun p => { p with record := rec', nextAttempt := some ⟨j, 1⟩ })))) ∧
  (∀ (s : State) (r : Room), s.periodOpen = true → exec (.pilotAttemptTimeout r) s = .next s) ∧
  (∀ (s : State) (r : Room) (w : Word) (k : Chan) (n : Nat), s.periodOpen = true → (s.room r).path.state = .prove →
    (s.room r).path.nextAttempt = none → (s.room r).path.proofPos = some ⟨k, n⟩ → 1920 ≤ (s.room r).path.seqCount →
    (RackWord.ofWord w).present = true ∨ (s.room r).path.rackAbsence + 1 < 2400 →
    ((RackWord.ofWord w).valid = false ∨ (RackWord.ofWord w).level < (s.room r).path.proofMin ∨
      (s.room r).path.proofMax < (RackWord.ofWord w).level) →
    let told : State := s.modPath r fun p => { p with
      lastRack := RackWord.ofWord w, rackTaken := true, pilotSent := some (k, p.seqCount)
      rackAbsence := if (RackWord.ofWord w).present then 0 else p.rackAbsence + 1 }
    ∃ u, exec (.pilotAttemptTimeout r) { told with periodOpen := false } = .next u ∧
      exec (.rackWord r (some w)) s = .next { u with periodOpen := true }) ∧
  (∀ (s : State) (r : Room) (w : Word) (k : Chan) (n : Nat), s.periodOpen = true → (s.room r).path.state = .prove →
    (s.room r).path.nextAttempt = none → (s.room r).path.proofPos = some ⟨k, n⟩ → 0 < (s.room r).path.seqCount →
    (RackWord.ofWord w).present = true ∨ (s.room r).path.rackAbsence + 1 < 2400 → (RackWord.ofWord w).valid = true →
    (s.room r).path.proofMin ≤ (RackWord.ofWord w).level → (RackWord.ofWord w).level ≤ (s.room r).path.proofMax →
    let p := (s.room r).path
    let rec' := p.record.set k.val { p.record[k] with result := .passed } k.isLt
    let run := if (RackWord.ofWord w).present then 0 else p.rackAbsence + 1
    ∃ t, exec (.rackWord r (some w)) s = .next t ∧ s.onlyRoom t r ∧ t.alarms = s.alarms ∧
      ((∀ j : Chan, k < j → p.isFitted j = false) →
        t.room r = { s.room r with path := { p with
          state := .ready, phase := .none, proven := (t.room r).path.proven, record := rec', rackAbsence := run,
          seqCount := 0, proofPos := none, nextAttempt := none, ramp := none, debounceHeld := false,
          lastRack := RackWord.ofWord w, rackTaken := true, pilotSent := some (k, p.seqCount) } } ∧
        ((t.room r).path.proven = true ↔ ∀ j : Chan, p.isFitted j = true → rec'[j].result = .passed) ∧
        t.mgmt = s.mgmt.told r (t.room r) [.roomState .prove, .proofDone (t.room r).path.proven rec']) ∧
      ∀ j : Chan, k < j → p.isFitted j = true → (∀ i : Chan, k < i → i < j → p.isFitted i = false) →
        t.room r = { s.room r with path := { p with
          record := rec', rackAbsence := run, nextAttempt := some ⟨j, 1⟩, lastRack := RackWord.ofWord w, rackTaken := true,
          pilotSent := some (k, p.seqCount) } } ∧ t.mgmt = s.mgmt)

/-- The count-outs that change one room alone: settling ends in debouncing with a run of 0 (R15), a fade ends with g at its end
value (R61), and an ascent ends in IDLE, or in a new descent when a slot is filled (R67).

The 576th period after a full reset makes the Table Store READY, and the 96th of an engine restart ends it; each is announced
and changes nothing else (R206, R208).

What is overdue as a period opens is, in this order, the reset's assertion of the supply warning, METER_BLOCK_END and
PILOT_ATTEMPT_TIMEOUT of each room (R18, R117, R210; the order is the model's choice, assumption 3).

As a sample period opens, after what is overdue, every count takes one step: a settling or pilot attempt count, a ramp with p, a
fade with g and a dip with d at the value of the new step, every running timer while the supply warning is not asserted, the
initialisation and the restart (R15, R18, R25, R61, R65, R167, R172, R206, R208); the new period has no rack word, no timecode and no
judged pilot yet. Which command opens the period, and what is
overdue then, is the model's choice (assumptions 1 and 3), and so is that a timer shows 1 in the period of its expiry until it
is taken (assumption 13, DEDUCED). -/
def Obligations.CountsRunOut : Prop :=
  (∀ (s : State) (r : Room), s.periodOpen = true →
    ((s.room r).path.phase = .settling → 4800 ≤ (s.room r).path.seqCount →
      exec (.settlingEnd r) s =
        .next (s.modPath r fun p => { p with phase := .debouncing, seqCount := 0, debounceHeld := true })) ∧
    (∀ f, (s.room r).gain.fade = some f → f.len ≤ f.n →
      exec (.fadeEnd r) s = .next (s.modRoom r fun rm => { rm with gain := { rm.gain with fade := none } })) ∧
    ((s.room r).dip.stage = .ascent → 240 ≤ (s.room r).dip.step →
      exec (.dipAscentEnd r) s = .next (s.modRoom r fun rm => { rm with dip := { rm.dip with
        stage := if rm.dip.fmtSlot ≠ none ∨ rm.dip.srcSlot ≠ none ∨ rm.dip.bankSlot ≠ none then .descent else .idle
        step := 0, d := 65536, followOn := false } }))) ∧
  (∀ s : State, s.periodOpen = true →
    (∀ n, s.store = .initialising n → 576 ≤ n →
      exec .tableStoreInitEnd s = .next (({ s with store := .ready } : State).notifyPart .storeReady)) ∧
    (∀ n, s.restart = some n → 96 ≤ n →
      exec .restartEnd s = .next (({ s with restart := none } : State).notifyPart .restarted))) ∧
  (∀ s : State, s.periodOpen = false →
    s.overdue = s.dueSupply.after (.meterBlockEnd [] :: (List.finRange 12).map .pilotAttemptTimeout)) ∧
  (∀ s : State, s.supplyDue = false → s.blockEndDue = false → (∀ r : Room, (s.room r).path.attemptOver = none) →
    s.overdue = s) ∧
  (∀ s : State, s.periodOpen = false →
    let u := s.overdue
    let t := s.openPeriod
    t = { u with
      rooms := t.rooms, store := t.store, restart := u.restart.map (· + 1), periodOpen := true,
      outFresh := u.outFresh && u.inputsFresh } ∧
    (u.store = .ready → t.store = .ready) ∧ (∀ n, u.store = .initialising n → t.store = .initialising (n + 1)) ∧
    ∀ r : Room,
      let a := u.room r
      let b := t.room r
      b = { a with
        path := b.path, gain := b.gain, dip := b.dip, timers := b.timers, tc := { a.tc with taken := false } } ∧
      b.path = { a.path with
        seqCount := b.path.seqCount, nextAttempt := none, proofPos := b.path.proofPos, record := b.path.record
        p := b.path.p, ramp := b.path.ramp, debounceHeld := false, rackTaken := false, pilotSent := none } ∧
      (∀ (k : Chan) (n : Nat), a.path.nextAttempt = some ⟨k, n⟩ →
        b.path.seqCount = 1 ∧ b.path.proofPos = some ⟨k, n⟩ ∧
        b.path.record = a.path.record.set k.val { a.path.record[k] with attempts := a.path.record[k].attempts + 1 } k.isLt) ∧
      (a.path.nextAttempt = none →
        b.path.proofPos = a.path.proofPos ∧ b.path.record = a.path.record ∧
        b.path.seqCount = if a.path.phase = .settling then min 4800 (a.path.seqCount + 1)
          else if a.path.phase = .proving then min 1920 (a.path.seqCount + 1) else a.path.seqCount) ∧
      (a.path.ramp = none → b.path.p = a.path.p ∧ b.path.ramp = none) ∧
      (∀ q : Ramp, a.path.ramp = some q →
        b.path.ramp = some { q with n := min q.len (q.n + 1) } ∧ b.path.p = interp q.p0 q.p1 q.len (min q.len (q.n + 1))) ∧
      (a.gain.fade = none → b.gain = a.gain) ∧
      (∀ f : Fade, a.gain.fade = some f → b.gain = { a.gain with
        g := interp f.g0 f.g1 f.len (min f.len (f.n + 1)), fade := some { f with n := min f.len (f.n + 1) } }) ∧
      (a.dip.stage = .idle → b.dip = a.dip) ∧
      (a.dip.stage ≠ .idle → b.dip = { a.dip with
        step := min 240 (a.dip.step + 1), d := dipFactor a.dip.stage (min 240 (a.dip.step + 1)) }) ∧
      ∀ i : Fin 4, b.timers[i] =
        if u.supply = true ∨ a.timers[i].running = false then a.timers[i]
        else if a.timers[i].remaining ≤ 1 then { a.timers[i] with expiring := true }
        else { a.timers[i] with remaining := a.timers[i].remaining - 1 })

/-- An event that is due in the period in progress, or in the one that opens with the command, is taken in that period; one that is not
has not come about, and nothing changes. It is due: the end of settling at a count of 4,800 (R15), of a ramp or fade at its last step
(R25, R61), the bottom and the end of a dip at step 240 (R67), an expiry when its count has run out and cues may fire (R167, R172, R175),
an edge at the 960th sample of a run (R177), the end of the initialisation at 576 periods and of a restart at 96 (R206, R208); the debounce
run and the rack loss with the word that completes them (R9, R16), LOST and STOPPED with the period that does, by the frame where the
room still has to read it (R45, R46), each in a period that has not had its word or timecode yet; and a hand-over when the room has one
(R156). The failure of a pilot attempt, which a rack word of its last period may still avert, is taken once that
period is over, and a block end once the block has its 480 periods, or in the last of them once every chain that runs in it comes ahead of
it and no format change is due that those chains are to have (R74; the model's own choice, assumptions 1, 3, 12 and 18). -/
def Obligations.UntimelyEventsWait : Prop :=
(∀ (s : State) (r : Room) (k : Fin 4) (i : Fin 16),
    let p := (s.room r).path
    let dp := (s.room r).dip
    let tm := (s.room r).timers[k]
    (s.settlingDue r = true ↔ p.phase = .settling ∧ 4800 ≤ p.seqCount) ∧
    (s.rampDue r = true ↔ ∃ q, p.ramp = some q ∧ q.len ≤ q.n) ∧
    (s.fadeDue r = true ↔ ∃ f, (s.room r).gain.fade = some f ∧ f.len ≤ f.n) ∧
    (s.bottomDue r = true ↔ dp.stage = .descent ∧ 240 ≤ dp.step) ∧
    (s.ascentDue r = true ↔ dp.stage = .ascent ∧ 240 ≤ dp.step) ∧
    (s.timerDue r k = true ↔ s.supply = false ∧ s.store = .ready ∧ s.restart = none ∧ tm.running = true ∧ tm.expiring = true) ∧
    (s.edgeDue i = true ↔ s.periodOpen = true ∧ s.inputs[i].run + 1 = 960 ∧ s.inputs[i].sampled = false ∧
      s.inputsFresh = false) ∧
    (s.storeDue = true ↔ ∃ n, s.store = .initialising n ∧ 576 ≤ n) ∧
    (s.restartDue = true ↔ ∃ n, s.restart = some n ∧ 96 ≤ n)) ∧
  (∀ (s : State) (r : Room) (k : Fin 4) (i : Fin 16),
    let t := s.openPeriod
    (t.settlingDue r = true → exec (.settlingEnd r) s = .next (t.settlingEnd r)) ∧
    (t.settlingDue r = false → exec (.settlingEnd r) s = .next s) ∧
    (t.rampDue r = true → exec (.pathRampEnd r) s = .next (t.rampEnd r)) ∧
    (t.rampDue r = false → exec (.pathRampEnd r) s = .next s) ∧
    (t.fadeDue r = true → exec (.fadeEnd r) s = .next (t.fadeEnd r)) ∧
    (t.fadeDue r = false → exec (.fadeEnd r) s = .next s) ∧
    (t.bottomDue r = true → exec (.dipBottom r) s = .next (t.dipBottom r)) ∧
    (t.bottomDue r = false → exec (.dipBottom r) s = .next s) ∧
    (t.ascentDue r = true → exec (.dipAscentEnd r) s = .next (t.ascentEnd r)) ∧
    (t.ascentDue r = false → exec (.dipAscentEnd r) s = .next s) ∧
    (t.timerDue r k = true → exec (.timerExpiry r k) s = .next (t.expire r k)) ∧
    (t.timerDue r k = false → exec (.timerExpiry r k) s = .next s) ∧
    (t.edgeDue i = true → exec (.contactEdge i) s = .next (t.takeContactEdge i)) ∧
    (t.edgeDue i = false → exec (.contactEdge i) s = .next s) ∧
    (t.storeDue = true → exec .tableStoreInitEnd s = .next t.storeEnd) ∧
    (t.storeDue = false → exec .tableStoreInitEnd s = .next s) ∧
    (t.restartDue = true → exec .restartEnd s = .next t.restartEnd) ∧
    (t.restartDue = false → exec .restartEnd s = .next s)) ∧
  (∀ (s : State) (r : Room) (w : Word) (v : Option Word) (same : Bool),
    let t := s.openPeriod
    let p := (t.room r).path
    let tc := (t.room r).tc
    let found := p.rackTaken = false ∧ p.state = .listen ∧ p.phase = .debouncing ∧ p.debounceHeld = false ∧ (RackWord.ofWord w).present = true ∧
      11999 ≤ p.seqCount
    let gone := p.rackTaken = false ∧ p.state ∈ [RoomState.ready, .prove, .live, .parked] ∧ (RackWord.ofFrame v).present = false ∧
      2399 ≤ p.rackAbsence
    let given : Option Nat := match (t.room r).activeMap.tc with
      | some l => if laneGood t.words[l] then some (t.words[l].toNat % 16777216) else none
      | none => none
    let lost := (tc.state = .running ∨ tc.state = .stopped) ∧ tc.absence = 2399 ∧ tc.taken = false ∧ (r ∉ t.waiting ∨ given = none)
    let still := tc.state = .running ∧ tc.still = 5999 ∧ tc.taken = false ∧
      (if same then tc.last ≠ none else tc.absence < 2399) ∧ (r ∉ t.waiting ∨ given = if same then tc.last else none)
    (found → exec (.debounceComplete r w) s = exec (.rackWord r (some w)) t) ∧
    (¬found → exec (.debounceComplete r w) s = .next s) ∧
    (gone → exec (.rackLoss r v) s = exec (.rackWord r v) t) ∧
    (¬gone → exec (.rackLoss r v) s = .next s) ∧
    (lost → exec (.timecodeLoss r) s = exec (.timecodeLoss r) t) ∧
    (¬lost → exec (.timecodeLoss r) s = .next s) ∧
    (still → exec (.timecodeStillExpiry r same) s = exec (.timecodeStillExpiry r same) t) ∧
    (¬still → exec (.timecodeStillExpiry r same) s = .next s) ∧
    ((∃ x ∈ t.handovers, x.room = r) → exec (.alarmHandover r) s = exec (.alarmHandover r) t) ∧
    ((∀ x ∈ t.handovers, x.room ≠ r) → exec (.alarmHandover r) s = .next s)) ∧
  ∀ (s : State) (r : Room) (order : List Room),
    (s.periodOpen = false → exec (.pilotAttemptTimeout r) s = .next (s.attemptTimeout r)) ∧
    (s.periodOpen = true → exec (.pilotAttemptTimeout r) s = .next s) ∧
    ((s.room r).path.attemptOver = none → s.attemptTimeout r = s) ∧
    let formatDue (rm : RoomRec) : Prop := rm.dip.fmtSlot ≠ none ∧ ((rm.dip.stage = .descent ∧ 240 ≤ rm.dip.step) ∨
      ((∃ q, rm.path.ramp = some q ∧ q.len ≤ q.n) ∧ rm.path.phase ≠ .rampingIn))
    let ready := s.periodOpen = true ∧ s.blockPos = 479 ∧
      ∀ q : Room, (s.room q).path.state = .live ∨ (s.room q).path.state = .parked →
        (s.room q).ahead ≠ none ∧ ¬formatDue (s.room q)
    (s.blockEndDue = true → exec (.meterBlockEnd order) s = .next (s.blockEnd order)) ∧
    (s.blockEndDue = false → ready → exec (.meterBlockEnd order) s = .next (s.earlyBlockEnd order)) ∧
    (s.blockEndDue = false → ¬ready → exec (.meterBlockEnd order) s = .next s)

/-- A path ramp at its last step ends: ramping-in in LIVE with phase none; ramping-out-park and supply-ramp in PARKED with p 0;
ramping-out-off in OFF with the teardown of R23, R138 and R174 (R25). A room that leaves LIVE with a dip in flight has every
filled slot applied at once and its dip IDLE (R68), which its notices tell: one ROOM_STATE (R7), and one BANK_SWAPPED of a bank change
waiting (R103), both with the snapshot after the change (R7, R104). That BANK_SWAPPED comes after ROOM_STATE is the model's own choice
(assumption 5, DESIGN CHOICE). -/
def Obligations.PathRampEnds : Prop :=
  ∀ (s : State) (r : Room) (q : Ramp), s.periodOpen = true → (s.room r).path.ramp = some q → q.len ≤ q.n → (s.room r).path.state = .live →
    let still : Path := { (s.room r).path with
      phase := .none, ramp := none, seqCount := 0, proofPos := none, nextAttempt := none, debounceHeld := false }
    let told (t : State) : Mgmt := s.mgmt.told r (t.room r) (.roomState .live ::
      if (s.room r).dip.stage = .idle then []
      else (s.room r).dip.bankSlot.toList.map fun n => .bankSwapped (s.room r).bankInService n)
    ((s.room r).path.phase = .rampingIn → exec (.pathRampEnd r) s = .next (s.modPath r fun _ => still)) ∧
    ((s.room r).path.phase = .rampingOutPark ∨ (s.room r).path.phase = .supplyRamp →
      ∃ t, exec (.pathRampEnd r) s = .next t ∧ s.onlyRoom t r ∧ t.alarms = s.alarms ∧ t.mgmt = told t ∧
        t.room r = { (s.room r).leavingLive with path := { still with state := .parked, p := 0 } }) ∧
    ((s.room r).path.phase = .rampingOutOff →
      ∃ t, exec (.pathRampEnd r) s = .next t ∧ s.onlyRoom t r ∧ t.mgmt = told t ∧
        t.room r = { (s.room r).leavingLive with
          path := { still with state := .off, p := 0, proven := false, halt := .none, rackAbsence := 0 }
          conds := Vector.replicate 16 .quiet, rackCond := .quiet, mask := .none, cursor := baseOf (s.room r).list
          timers := (t.room r).timers } ∧
        (∀ i : Fin 4, (t.room r).timers[i] =
          { (s.room r).timers[i] with running := false, remaining := 0, expiring := false }) ∧
        t.alarms = s.alarms.filter (fun e => e.room ≠ r))

/-- The answer to the request GO by state, phase and supply warning; a refusal changes nothing (R14 to R24). That GO_LIVE in PROVE is
answered with SEQ_BUSY, as R20 says and the example of R160 does not, is the model's choice (assumption 17, DESIGN CHOICE); a
cue action GO gives WRONG_STATE there. The request itself, from a sender that may write in the room, is answered with the refusal and
an empty body, and changes nothing else. -/
def Obligations.GoJudgedByStateAndPhase : Prop :=
∀ (s : State) (r : Room) (t : GoTarget),
    let p := (s.room r).path
    let res : Result :=
      (if t = .goOff ∨ t = .goStop then .ok
       else if s.supply = true then .supplyLow
       else if t = .goListen then (if p.state = .off ∨ p.state = .halted then .ok else .wrongState)
       else if t = .goProve then
         (if p.state = .ready then .ok else if p.state = .listen then .seqBusy else .wrongState)
       else if t = .goLive then
         (if p.state = .ready ∧ p.proven = true ∨ p.state = .parked then .ok
          else if p.state = .listen ∨ p.state = .prove ∨ (p.state = .live ∧ p.phase ≠ .none) then .seqBusy
          else .wrongState)
       else if p.state = .live ∧ p.phase = .none then .ok
       else if p.state = .live ∧ p.phase = .rampingIn then .seqBusy
       else .wrongState)
    (s.goJudge r t).2 = res ∧ (res ≠ .ok → (s.goJudge r t).1 = s) ∧
    ∀ h : Header, s.listening → s.readable → s.mayWrite h r → res ≠ .ok →
      exec (.go h [BitVec.ofNat 28 t.code]) s = .next (s.replied h .go res [])

/-- The request GO toward LISTEN, PROVE, LIVE and PARKED, where it is accepted: the room's record afterwards, with the cursor
placed on leaving OFF and the history and decode state zeroed on entering LIVE from READY, where what chains that were put ahead in the
period write to them is discarded (assumption 18, DESIGN CHOICE), and the reply with state and phase (R14, R15, R17, R20, R21, R58, R81,
R154). A change of state is announced by one ROOM_STATE with the state left, and nothing else is but the
end of a proof without channels (R7, R17). -/
def Obligations.GoForwardAccepted : Prop :=
  ∀ (s : State) (h : Header) (r : Room), s.admits h r →
    let rm := s.room r
    let p := rm.path
    (p.state = .off ∨ p.state = .halted →
      ∃ u : State, exec (.go h [1]) s = .next (u.replied h .go .ok [.bits 3 1, .bits 3 1]) ∧ s.onlyRoom u r ∧ u.alarms = s.alarms ∧
        u.mgmt = s.mgmt.told r (u.room r) [.roomState p.state] ∧
        u.room r = { rm with
          path := { p with
            state := .listen, phase := .settling, halt := .none, rackAbsence := 0, seqCount := 0, proofPos := none,
            nextAttempt := none, ramp := none, debounceHeld := false }
          cursor := if p.state = .halted then rm.cursor else
            match rm.tc.last with
            | none => baseOf rm.list
            | some last => firstAt (fun f => decide (last < f)) rm.list }) ∧
    (∀ k : Chan, p.state = .ready → p.isFitted k = true → (∀ j : Chan, j < k → p.isFitted j = false) →
      ∃ u : State, exec (.go h [2]) s = .next (u.replied h .go .ok [.bits 3 3, .bits 3 3]) ∧ s.onlyRoom u r ∧
        u.alarms = s.alarms ∧ u.mgmt = s.mgmt.told r (u.room r) [.roomState .ready] ∧ u.room r = { rm with path := { p with
          state := .prove, phase := .proving, proven := false, proofPos := some ⟨k, 1⟩, nextAttempt := none, seqCount := 0,
          record := clearRecord.set k.val ⟨.untested, 1⟩ k.isLt } }) ∧
    (p.state = .ready → p.fitted = 0#16 → p.phase = .none →
      exec (.go h [2]) s = .next (((s.modPath r fun p => { p with proven := true, record := clearRecord }).notify r
        (.proofDone true clearRecord)).replied h .go .ok [.bits 3 2, .bits 3 0])) ∧
    (p.state = .ready → p.proven = true →
      ∃ u : State, exec (.go h [3]) s = .next (u.replied h .go .ok [.bits 3 4, .bits 3 4]) ∧ s.onlyRoom u r ∧
        u.alarms = s.alarms ∧ u.mgmt = s.mgmt.told r (u.room r) [.roomState .ready] ∧ u.room r = { rm with
          path := { p with
            state := .live, phase := .rampingIn, ramp := some ⟨p.p, 65536, 480, 0⟩, enteredInBlock := true }
          histA := .zero, histB := .zero, decode := .zero
          ahead := rm.ahead.map fun e => { e with histStands := false, decodeStands := false } }) ∧
    (p.state = .parked →
      ∃ u : State, exec (.go h [3]) s = .next (u.replied h .go .ok [.bits 3 4, .bits 3 4]) ∧ s.onlyRoom u r ∧
        u.alarms = s.alarms ∧ u.mgmt = s.mgmt.told r (u.room r) [.roomState .parked] ∧ u.room r = { rm with path := { p with
          state := .live, phase := .rampingIn, ramp := some ⟨p.p, 65536, 480, 0⟩ } }) ∧
    (p.state = .live → p.phase = .none →
      exec (.go h [4]) s = .next ((s.modPath r fun p => { p with
        phase := .rampingOutPark, ramp := some ⟨p.p, 0, 480, 0⟩ }).replied h .go .ok [.bits 3 4, .bits 3 5]))

/-- GO_OFF and GO_STOP are accepted in every state and phase, also while the supply warning is asserted (R14, R22, R24): GO_OFF
ramps a LIVE room out, leaves a ramp to OFF running, and takes any other room to OFF at once with its teardown; GO_STOP ends
a settling or debouncing room in OFF, and a ramp to OFF in OFF at once, with every filled slot of a dip in flight applied (R68);
a proof in READY with the record cleared, a ramp in or to PARKED in PARKED with p 0, a dip in flight applied and ended alike (R68), and
changes nothing in a supply ramp or in phase none. Entering OFF tears the room down (R23, R138, R174). The phase of the room is one of its
state. Every change of state is announced by one ROOM_STATE with the state left (R7), and a bank change that waits in a dip in flight by
one BANK_SWAPPED (R103), both with the snapshot after the change (R7, R104). That BANK_SWAPPED comes after ROOM_STATE is the model's own
choice (assumption 5, DESIGN CHOICE). -/
def Obligations.GoOffAndStopAccepted : Prop :=
  ∀ (s : State) (h : Header) (r : Room), s.listening → s.readable → s.mayWrite h r →
    (s.room r).path.state.hasPhase (s.room r).path.phase = true →
    let rm := s.room r
    let p := rm.path
    let still : Path := { p with
      phase := .none, seqCount := 0, proofPos := none, nextAttempt := none, ramp := none, debounceHeld := false }
    let told (u : State) : Mgmt := s.mgmt.told r (u.room r) (.roomState p.state ::
      if p.state ≠ .live ∨ rm.dip.stage = .idle then []
      else rm.dip.bankSlot.toList.map fun n => .bankSwapped rm.bankInService n)
    let offNow (t : GoTarget) : Prop :=
      ∃ u : State, exec (.go h [BitVec.ofNat 28 t.code]) s = .next (u.replied h .go .ok [.bits 3 0, .bits 3 0]) ∧ s.onlyRoom u r ∧
        u.room r = { rm with
          path := { still with state := .off, p := 0, proven := false, halt := .none, rackAbsence := 0 }
          conds := Vector.replicate 16 .quiet, rackCond := .quiet, mask := .none, timers := (u.room r).timers,
          cursor := baseOf rm.list } ∧
        (∀ i : Fin 4, (u.room r).timers[i] = { rm.timers[i] with running := false, remaining := 0, expiring := false }) ∧
        u.alarms = s.alarms.filter (fun e => e.room ≠ r) ∧ u.mgmt = told u
    (p.state = .live → p.phase ≠ .rampingOutOff →
      exec (.go h [0]) s = .next ((s.modPath r fun p => { p with
        phase := .rampingOutOff, ramp := some ⟨p.p, 0, 480, 0⟩ }).replied h .go .ok [.bits 3 4, .bits 3 6])) ∧
    (p.state = .off ∨ (p.state = .live ∧ p.phase = .rampingOutOff) →
      exec (.go h [0]) s = .next (s.replied h .go .ok [.bits 3 p.state.code, .bits 3 p.phase.code])) ∧
    (p.state ≠ .off → p.state ≠ .live → offNow .goOff) ∧
    (p.phase = .settling ∨ p.phase = .debouncing → offNow .goStop) ∧
    (p.phase = .proving →
      ∃ u : State, exec (.go h [5]) s = .next (u.replied h .go .ok [.bits 3 2, .bits 3 0]) ∧ s.onlyRoom u r ∧ u.alarms = s.alarms ∧
        u.mgmt = told u ∧
        u.room r = { rm with path := { still with state := .ready, proven := false, record := clearRecord } }) ∧
    (p.phase = .rampingIn ∨ p.phase = .rampingOutPark →
      ∃ u : State, exec (.go h [5]) s = .next (u.replied h .go .ok [.bits 3 5, .bits 3 0]) ∧ s.onlyRoom u r ∧ u.alarms = s.alarms ∧
        u.mgmt = told u ∧ u.room r = { rm.leavingLive with path := { still with state := .parked, p := 0 } }) ∧
    (p.phase = .rampingOutOff →
      ∃ u : State, exec (.go h [5]) s = .next (u.replied h .go .ok [.bits 3 0, .bits 3 0]) ∧ s.onlyRoom u r ∧ u.mgmt = told u ∧
        u.room r = { rm.leavingLive with
          path := { still with state := .off, p := 0, proven := false, halt := .none, rackAbsence := 0 }
          conds := Vector.replicate 16 .quiet, rackCond := .quiet, mask := .none, timers := (u.room r).timers,
          cursor := baseOf rm.list } ∧
        (∀ i : Fin 4, (u.room r).timers[i] = { rm.timers[i] with running := false, remaining := 0, expiring := false }) ∧
        u.alarms = s.alarms.filter (fun e => e.room ≠ r)) ∧
    (p.phase = .supplyRamp ∨ p.phase = .none →
      exec (.go h [5]) s = .next (s.replied h .go .ok [.bits 3 p.state.code, .bits 3 p.phase.code]))

/-- SET_ROOM writes the three fields together, clamps the limits, clears the proof record and proven, and touches neither state
nor phase; a policy that is neither of the two, or a min above max, is refused (R29). SET_GUARD, from a sender whose level passes
the old guard and the new, gives the room its new guard and answers with both; at guard 3 every level does (R201). -/
def Obligations.RoomFieldsWritten : Prop :=
  (∀ (s : State) (h : Header) (r : Room) (a b c d : Payload), s.admits h r →
    (1 < d.toNat ∨ min 8388607 c.toNat < min 8388607 b.toNat →
      exec (.setRoom h [a, b, c, d]) s = .next (s.replied h .setRoom .badField [])) ∧
    (∀ pol, Policy.ofCode d.toNat = some pol → min 8388607 b.toNat ≤ min 8388607 c.toNat →
      ((s.room r).path.state = .off ∨ (s.room r).path.state = .listen ∨ (s.room r).path.state = .ready →
        exec (.setRoom h [a, b, c, d]) s = .next ((s.modPath r fun p => { p with
          fitted := BitVec.ofNat 16 a.toNat, proofMin := min 8388607 b.toNat, proofMax := min 8388607 c.toNat, policy := pol,
          record := clearRecord, proven := false }).replied h .setRoom .ok [])) ∧
      ((s.room r).path.state = .prove ∨ (s.room r).path.state = .live ∨ (s.room r).path.state = .parked ∨
          (s.room r).path.state = .halted →
        exec (.setRoom h [a, b, c, d]) s = .next (s.replied h .setRoom .wrongState [])))) ∧
  ∀ (s : State) (h : Header) (r : Room) (a : Payload) (g : Fin 4), s.listening → s.operational → namesRoom h r →
    h.level.toNat ≤ (s.room r).guard.val → a.toNat = g.val → h.level.toNat ≤ g.val →
      exec (.setGuard h [a]) s = .next ((s.modRoom r fun rm => { rm with guard := g }).replied h .setGuard .ok
        [.bits 2 (s.room r).guard.val, .bits 2 g.val])

/-- SUPPLY WARNING asserted: every LIVE room ramps to 0 over 192 periods, every proof ends in READY with its record cleared and
proven no, no other room moves, every cursor goes to base and every timer keeps its remaining count; the supply state is ASSERTED
(R27, R171, R173, R210). The proofs that end are announced by ROOM_STATE in the order in which the rooms act, and the assertion by one
SUPPLY notice before or after them, as the command says (R27). That an expiry not yet taken is put off to the release, with 1 remaining, is the model's reading
(assumption 13, DEDUCED).

A line that stands asserted as a full reset ends has the same acts in the first sample period, as it opens (R210). Either edge that comes
with no sample period open opens the next one first (assumption 1).

SUPPLY WARNING released: one SUPPLY notice, every cursor placed against its last frame, and nothing else (R28, R148, R173).

That an assertion of a line already asserted and a release of a line already released each change nothing is no rule of the spec: both are
the model's choice (assumption 6, DESIGN CHOICE). -/
def Obligations.SupplyWarningActs : Prop :=
  let acted (s t : State) (order : List Room) (supplyFirst : Bool) : Prop :=
      (let proofs (m : Mgmt) : Mgmt := ((visit order).filter fun r => decide ((s.room r).path.state = .prove)).foldl
          (fun m r => m.told r (t.room r) [.roomState .prove]) m
       t.mgmt = if supplyFirst then proofs (s.mgmt.raise none (.supply true)) else (proofs s.mgmt).raise none (.supply true)) ∧
      ({ s with supply := true, supplyDue := false } : State).onlyRooms t ∧ t.alarms = s.alarms ∧
      ∀ r : Room,
        let p := (s.room r).path
        t.room r = { s.room r with
          path :=
            if p.state = .live then { p with phase := .supplyRamp, ramp := some ⟨p.p, 0, 192, 0⟩ }
            else if p.state = .prove then { p with
              state := .ready, phase := .none, proven := false, record := clearRecord, seqCount := 0, proofPos := none,
              nextAttempt := none, ramp := none, debounceHeld := false }
            else p
          cursor := baseOf (s.room r).list
          timers := (t.room r).timers } ∧
        ∀ i : Fin 4, (t.room r).timers[i] = { (s.room r).timers[i] with expiring := false }
  (∀ (s : State) (order : List Room) (supplyFirst : Bool), s.periodOpen = true →
    (s.supply = false →
      ∃ t, exec (.supplyWarningAsserted order supplyFirst) s = .next t ∧ acted s t order supplyFirst) ∧
    (s.supply = true → exec (.supplyWarningAsserted order supplyFirst) s = .next s)) ∧
  (∀ s : State, (s.supplyDue = true → acted s s.dueSupply [] false) ∧ (s.supplyDue = false → s.dueSupply = s)) ∧
  (∀ (s : State) (order : List Room) (supplyFirst : Bool),
    exec (.supplyWarningAsserted order supplyFirst) s = exec (.supplyWarningAsserted order supplyFirst) s.openPeriod ∧
    exec .supplyWarningReleased s = exec .supplyWarningReleased s.openPeriod) ∧
  (∀ s : State, s.periodOpen = true →
    (s.supply = true →
      exec .supplyWarningReleased s =
        .next ((({ s with supply := false } : State).notifyPart (.supply false)).mapRooms fun rm => { rm with
          cursor := match rm.tc.last with
            | none => baseOf rm.list
            | some last =>
              if rm.path.state = .off then baseOf rm.list else firstAt (fun f => decide (last < f)) rm.list })) ∧
    (s.supply = false → exec .supplyWarningReleased s = .next s))

/-! ### Signal arithmetic (03) -/

/-- scale(A, k) is floor((A + 2^(k−1))/2^k): the greatest integer whose product with 2^k does not exceed A + 2^(k−1), with the
rule's two examples; and a section sum of coefficients and samples in range is below 2^49 (R51). -/
def Obligations.ScaleRounds : Prop :=
  (∀ (a : Int) (k : Nat), scale a k * 2 ^ k ≤ a + 2 ^ (k - 1) ∧ a + 2 ^ (k - 1) < (scale a k + 1) * 2 ^ k) ∧
  scale (437500 * 65536 + 32768) 16 = 437501 ∧ scale (-2 * 65536 - 32768) 16 = -2 ∧
  ∀ (c : Coefs) (h : Hist) (x : Int), (∀ y ∈ [c.b0, c.b1, c.b2, c.a1, c.a2, x, h.x1, h.x2, h.y1, h.y2], |y| ≤ 2 ^ 23) →
    sectionSum c h x = c.b0 * x + c.b1 * h.x1 + c.b2 * h.x2 - c.a1 * h.y1 - c.a2 * h.y2 ∧ |sectionSum c h x| < 2 ^ 49

/-- With no ACTIVE slot, the trim and the three gains at unity, a source in the sample range leaves the chain as it came, is
the meter tap's value, and counts no clip (R55 to R57).

With the dip and path factors in their range, the chain's output and its meter tap are samples, and with either factor 0 the
output is 0 (R6, R52, R56, R57).

With any ACTIVE slots: slots 1 to 8 in order, each ACTIVE one on the output of the one before, or on the source, with its own history,
which alone moves; then the meter tap, the output and the clips of all the saturations (R51, R52, R55 to R57).

A period in which a room's chains run, once (R53): the sixteen histories of the bank in service, the envelopes and indices under an MX4 entry,
each channel's running peak and clip count, each source, a decode output among them, and the demand: 40 for an MX4 entry and one for
each ACTIVE slot of the bank in service (R53, R54, R70, R83 to R86, R114, R115, R118). Of a room that is neither LIVE nor PARKED nothing
is computed, and its demand is 0 (R53, R70, R115). A period whose block has ended already adds nothing to the meters. Chains that come
ahead of events of their period use the bank in service, the history, the decode state, g and d as they stood then, with the format entry
and the programme values of the period; what they write to the history, or to the decode state, is discarded where an event has set it
to 0 since (R58, R74, R81, R101, R118; assumption 18, DESIGN CHOICE). Their demand is that of the bank they use, whatever a load of the
period has made of it since (R115; assumption 19, DESIGN CHOICE). -/
def Obligations.ChainTransparentAndInRange : Prop :=
  (∀ (ch : ChanEq) (hist : Vector Hist 8) (x : Int), (∀ i : Fin 8, ch.slots[i].tag ≠ .active) → ch.trim = 65536 →
    -8388608 ≤ x → x ≤ 8388607 →
    (chain ch hist 65536 65536 65536 x).w = x ∧ (chain ch hist 65536 65536 65536 x).t = x ∧
    (chain ch hist 65536 65536 65536 x).clips = 0 ∧ (chain ch hist 65536 65536 65536 x).hist = hist) ∧
  (∀ (ch : ChanEq) (hist : Vector Hist 8) (g d p : Nat) (x : Int), d ≤ 65536 → p ≤ 65536 →
    -8388608 ≤ (chain ch hist g d p x).w ∧ (chain ch hist g d p x).w ≤ 8388607 ∧
    -8388608 ≤ (chain ch hist g d p x).t ∧ (chain ch hist g d p x).t ≤ 8388607 ∧
    (d = 0 ∨ p = 0 → (chain ch hist g d p x).w = 0)) ∧
  (∀ (ch : ChanEq) (hist : Vector Hist 8) (g d p : Nat) (x : Int),
    let sat (v : Int) : Int := max (-8388608) (min 8388607 v)
    let clip (v : Int) : Nat := if v < -8388608 ∨ 8388607 < v then 1 else 0
    let slot (o : Int × Nat × Vector Hist 8) (i : Fin 8) : Int × Nat × Vector Hist 8 :=
      let raw := scale (sectionSum ch.slots[i].coefs o.2.2[i] o.1) 22
      if ch.slots[i].tag = .active then
        (sat raw, o.2.1 + clip raw, o.2.2.set i.val ⟨o.1, o.2.2[i].x1, sat raw, o.2.2[i].y1⟩ i.isLt)
      else o
    let cascade := [0, 1, 2, 3, 4, 5, 6, 7].foldl slot (x, 0, hist)
    let tap := scale (cascade.1 * ch.trim) 16
    let out := scale (sat tap * g) 16
    (chain ch hist g d p x).hist = cascade.2.2 ∧
    (chain ch hist g d p x).t = sat tap ∧
    (chain ch hist g d p x).w = scale (scale (sat out * d) 16 * p) 16 ∧
    (chain ch hist g d p x).clips = cascade.2.1 + clip tap + clip out) ∧
  (∀ (rm : RoomRec) (p : Profile) (counted : Bool),
    let t := rm.runChains p counted
    let sat (v : Int) : Int := max (-8388608) (min 8388607 v)
    let lt := rm.prog[(0 : Fin 16)]
    let rt := rm.prog[(1 : Fin 16)]
    let mx4 := rm.formats[rm.activeFormat].mode = .mx4
    let bank := if rm.bankInService = .a then rm.bankA else rm.bankB
    let hist := if rm.bankInService = .a then rm.histA else rm.histB
    let decoded (o : DecOut) : Int :=
      let entry : Int × Int := match o with
        | .l => p.rowL.toList.getD (t.decode.lr + 16).toNat (0, 0)
        | .r => p.rowR.toList.getD (t.decode.lr + 16).toNat (0, 0)
        | .c => p.rowC.toList.getD (t.decode.cs + 16).toNat (0, 0)
        | .s => p.rowS.toList.getD (t.decode.cs + 16).toNat (0, 0)
      if p.loaded = 15#4 then scale (entry.1 * lt + entry.2 * rt) 22 else 0
    let source (k : Chan) : Int × Nat := match rm.formats[rm.activeFormat].map[k] with
      | .program c => (rm.prog[c], 0)
      | .decode o => (sat (decoded o), if sat (decoded o) = decoded o then 0 else 1)
      | .none => (0, 0)
    let out (k : Chan) : ChainOut := chain bank.chans[k] hist[k] rm.gain.g rm.dip.d rm.path.p (source k).1
    let runs := rm.path.state = .live ∨ rm.path.state = .parked
    (runs → t.demand = (if mx4 then 40 else 0) + bank.active) ∧
    (rm.ahead = none → runs → rm.runPeriod p counted = t ∧
      rm.putAhead = { rm with ahead := some ⟨bank, hist, rm.decode, rm.gain.g, rm.dip.d, true, true⟩ }) ∧
    (¬runs → rm.runPeriod p counted = { rm with demand := 0, ahead := none }) ∧
    (rm.ahead ≠ none ∨ ¬runs → rm.putAhead = rm) ∧
    (∀ e, rm.ahead = some e → runs →
      let a := rm.bankInService = .a
      let u := RoomRec.runChains { rm with
        bankA := if a then e.bank else rm.bankA, bankB := if a then rm.bankB else e.bank
        histA := if a then e.hist else rm.histA, histB := if a then rm.histB else e.hist
        decode := e.decode, gain := { rm.gain with g := e.g }, dip := { rm.dip with d := e.d } } p counted
      rm.runPeriod p counted = { rm with
        histA := if e.histStands then u.histA else rm.histA, histB := if e.histStands then u.histB else rm.histB
        decode := if e.decodeStands then u.decode else rm.decode
        meters := u.meters, demand := u.demand, ahead := none }) ∧
    (¬mx4 → t.decode = rm.decode) ∧
    (mx4 →
      t.decode.eL = envelope p.attack p.release rm.decode.eL |lt| ∧
      t.decode.eR = envelope p.attack p.release rm.decode.eR |rt| ∧
      t.decode.eS = envelope p.attack p.release rm.decode.eS |(lt + rt) / 2| ∧
      t.decode.eD = envelope p.attack p.release rm.decode.eD |(lt - rt) / 2| ∧
      t.decode.lr = dominance p.floor rm.decode.lr t.decode.eL t.decode.eR ∧
      t.decode.cs = dominance p.floor rm.decode.cs t.decode.eS t.decode.eD) ∧
    (∀ k : Chan, (if rm.bankInService = .a then t.histA else t.histB)[k] = (out k).hist ∧
      t.meters[k] = if counted then { rm.meters[k] with
        peak := max rm.meters[k].peak (out k).t.natAbs, clips := rm.meters[k].clips + (out k).clips + (source k).2 }
        else rm.meters[k]) ∧
    t = { rm with
      decode := t.decode, meters := t.meters, demand := rm.demandNow,
      histA := if rm.bankInService = .a then t.histA else rm.histA,
      histB := if rm.bankInService = .a then rm.histB else t.histB })

/-- A value between two ends at step n of N: start + (end − start)·n/N with the quotient cut off toward 0 (R25, R61), so the start at
0, the end at N, and never outside the two (R64); and the dip factor falls from 65,536 to 0 and rises back in 240 steps (R65).

An envelope gains floor((a − e)/2^k), k the attack shift when the magnitude a is above it and the release shift otherwise, and so moves
between its old value and the magnitude (R83). A dominance index, where the sum of the two envelopes is at least the floor and not 0, is
floor((2·16·(x − y) + (x + y))/(2·(x + y))), and otherwise stays; formed from envelopes it lies in −16 to 16 (R84). -/
def Obligations.ValuesStayInRange : Prop :=
  ((∀ a b len n : Nat, 0 < len → n ≤ len →
    interp a b len n = (if a ≤ b then a + (b - a) * n / len else a - (a - b) * n / len) ∧
    interp a b len 0 = a ∧ interp a b len len = b ∧ min a b ≤ interp a b len n ∧ interp a b len n ≤ max a b) ∧
  ∀ n : Nat, n ≤ 240 →
    dipFactor .descent n = 65536 * (240 - n) / 240 ∧ dipFactor .ascent n = 65536 * n / 240 ∧ dipFactor .idle n = 65536 ∧
    dipFactor .descent n ≤ 65536 ∧ dipFactor .ascent n ≤ 65536) ∧
  ((∀ (attack release : Nat) (e a : Int),
    let d := envelope attack release e a - e
    (e < a → d * 2 ^ attack ≤ a - e ∧ a - e < (d + 1) * 2 ^ attack) ∧
    (a ≤ e → d * 2 ^ release ≤ a - e ∧ a - e < (d + 1) * 2 ^ release)) ∧
  (∀ (attack release : Nat) (e a : Int), 0 ≤ e → e ≤ 8388608 → 0 ≤ a → a ≤ 8388608 →
    min e a ≤ envelope attack release e a ∧ envelope attack release e a ≤ max e a) ∧
  (∀ (floor : Nat) (last x y : Int), 0 < x + y → floor ≤ x + y →
    let i := dominance floor last x y
    i * (2 * (x + y)) ≤ 2 * (16 * (x - y)) + (x + y) ∧ 2 * (16 * (x - y)) + (x + y) < (i + 1) * (2 * (x + y))) ∧
  ∀ (floor : Nat) (last x y : Int), 0 ≤ x → 0 ≤ y → -16 ≤ last → last ≤ 16 →
    -16 ≤ dominance floor last x y ∧ dominance floor last x y ≤ 16 ∧
    (x + y < floor ∨ x + y = 0 → dominance floor last x y = last))

/-- SET_GAIN: the clamped step is stored, and, unless the room is muted, g fades to its law entry over 48 periods a millisecond,
at once for a duration of 0 (R61, R62). SET_MUTE: a change of mute fades to 0, or back to the law entry, over 480 periods, and
the value it has already changes nothing (R63). -/
def Obligations.GainRequestsFade : Prop :=
∀ (s : State) (h : Header) (r : Room) (a b : Payload) (step : Fin 101), s.admits h r → step.val = min 100 a.toNat →
    let gn := (s.room r).gain
    let n := min 60000 b.toNat * 48
    (gn.mute = false → b.toNat ≠ 0 →
      exec (.setGain h [a, b]) s = .next ((s.modRoom r fun rm => { rm with
        gain := { gn with step := step, fade := some ⟨gn.g, s.law[step], n, 0⟩ } }).replied h .setGain .ok [])) ∧
    (gn.mute = false → b.toNat = 0 →
      exec (.setGain h [a, b]) s = .next ((s.modRoom r fun rm => { rm with
        gain := { gn with step := step, g := s.law[step], fade := none } }).replied h .setGain .ok [])) ∧
    (gn.mute = true →
      exec (.setGain h [a, b]) s = .next ((s.modRoom r fun rm => { rm with
        gain := { gn with step := step } }).replied h .setGain .ok [])) ∧
    (gn.mute = false →
      exec (.setMute h [1]) s = .next ((s.modRoom r fun rm => { rm with
        gain := { gn with mute := true, fade := some ⟨gn.g, 0, 480, 0⟩ } }).replied h .setMute .ok []) ∧
      exec (.setMute h [0]) s = .next (s.replied h .setMute .ok [])) ∧
    (gn.mute = true →
      exec (.setMute h [0]) s = .next ((s.modRoom r fun rm => { rm with
        gain := { gn with mute := false, fade := some ⟨gn.g, s.law[gn.step], 480, 0⟩ } }).replied h .setMute .ok []) ∧
      exec (.setMute h [1]) s = .next (s.replied h .setMute .ok []))

/-- LOAD_FADER_LAW writes its run of entries, each clamped, and touches no room (R59).

The three writes of a steering profile that no room holds in service: the clear, a row with the profile's state after it, and
the clamped parameters; each leaves the rest of the profile, and every other profile (R75 to R79).

A profile named by the active MX4 entry of a room that is not OFF, or by the MX4 entry in a format slot, is in service, and
each of its three writes is refused with IN_SERVICE (R79). -/
def Obligations.PartTablesWritten : Prop :=
  (∀ (s : State) (h : Header) (body : List Payload), s.admitsTable h → 2 ≤ body.length →
    body.length = 2 + arg body 1 → arg body 0 ≤ 100 → 0 < arg body 1 → arg body 1 ≤ 64 →
    arg body 0 + arg body 1 ≤ 101 →
    ∃ law, exec (.loadFaderLaw h body) s = .next (({ s with law := law } : State).replied h .loadFaderLaw .ok []) ∧
      ∀ f : Fin 101, law[f] =
        if arg body 0 ≤ f.val ∧ f.val < arg body 0 + arg body 1 then min 131071 (arg body (2 + (f.val - arg body 0)))
        else s.law[f]) ∧
  (∀ (s : State) (h : Header) (a b c d : Payload) (p : Fin 4), s.admitsTable h → a.toNat = p.val →
    s.profileInService p = false →
    (∃ x, exec (.clearProfile h [a]) s = .next ((s.modProfile p fun _ => x).replied h .clearProfile .ok []) ∧
      x.loaded = 0 ∧ x.rowL = Vector.replicate 33 (0, 0) ∧ x.rowR = Vector.replicate 33 (0, 0) ∧
      x.rowC = Vector.replicate 33 (0, 0) ∧ x.rowS = Vector.replicate 33 (0, 0) ∧
      x.floor = s.profiles[p].floor ∧ x.attack = s.profiles[p].attack ∧ x.release = s.profiles[p].release) ∧
    exec (.setProfileParams h [a, b, c, d]) s = .next ((s.modProfile p fun x => { x with
      floor := min 8388608 b.toNat, attack := max 1 (min 15 c.toNat), release := max 1 (min 15 d.toNat) }).replied h
        .setProfileParams .ok
        [.bits 24 (min 8388608 b.toNat), .bits 4 (max 1 (min 15 c.toNat)), .bits 4 (max 1 (min 15 d.toNat))]) ∧
    ∀ (pairs : List Payload) (row : Row), pairs.length = 66 → Row.ofCode b.toNat = some row →
      ∃ x, exec (.loadProfileRow h (a :: b :: pairs)) s = .next ((s.modProfile p fun _ => x).replied h .loadProfileRow .ok
          [.bits 2 (if x.loaded = 15#4 then 2 else 1)]) ∧
        (∀ e : Fin 33, (x.row row)[e] =
          (((pairs.getD (2 * e.val) 0).extractLsb' 0 24).toInt, ((pairs.getD (2 * e.val + 1) 0).extractLsb' 0 24).toInt)) ∧
        (∀ other : Row, other ≠ row → x.row other = s.profiles[p].row other) ∧
        x.loaded = s.profiles[p].loaded ||| (match row with | .l => 1#4 | .r => 2#4 | .c => 4#4 | .s => 8#4) ∧
        x.floor = s.profiles[p].floor ∧ x.attack = s.profiles[p].attack ∧ x.release = s.profiles[p].release) ∧
  (∀ (s : State) (h : Header) (a b c d : Payload) (p : Fin 4) (r : Room) (i : Fin 4), s.admitsTable h →
    a.toNat = p.val → (s.room r).formats[i].mode = .mx4 → (s.room r).formats[i].profile = p →
    ((s.room r).path.state ≠ .off ∧ (s.room r).activeFormat = i) ∨ (s.room r).dip.fmtSlot = some i →
    exec (.clearProfile h [a]) s = .next (s.replied h .clearProfile .inService []) ∧
    exec (.setProfileParams h [a, b, c, d]) s = .next (s.replied h .setProfileParams .inService []) ∧
    ∀ pairs : List Payload, pairs.length = 66 → b.toNat ≤ 3 →
      exec (.loadProfileRow h (a :: b :: pairs)) s = .next (s.replied h .loadProfileRow .inService []))

/-- A selection in a LIVE room whose dip is IDLE: a new target fills the slot of its kind and begins a descent, and the active
value changes nothing; a format needs its profile READY (R40, R66, R73, R100).

In every room state and stage of the dip the request hands its target to the dip machine and is answered OK with an empty body (R40,
R66, R68, R73, R100).

The dip machine's table in a descent and in an ascent: a new target joins or sets follow-on, the active value empties the
slot (R66). -/
def Obligations.SelectionsInLive : Prop :=
  (∀ (s : State) (h : Header) (r : Room) (a : Payload), s.admits h r →
    (∀ m, Source.ofCode a.toNat = some m →
      exec (.selectSource h [a]) s = .next ((s.handOn r (.source m)).replied h .selectSource .ok [])) ∧
    (∀ n, BankName.ofCode a.toNat = some n →
      exec (.selectBank h [a]) s = .next ((s.handOn r (.bank n)).replied h .selectBank .ok [])) ∧
    ∀ i : Fin 4, a.toNat = i.val →
      ((s.room r).formats[i].mode = .mx4 → s.profiles[(s.room r).formats[i].profile].loaded ≠ 15#4 →
        exec (.selectFormat h [a]) s = .next (s.replied h .selectFormat .wrongState [])) ∧
      ((s.room r).formats[i].mode = .discrete ∨ s.profiles[(s.room r).formats[i].profile].loaded = 15#4 →
        exec (.selectFormat h [a]) s = .next ((s.handOn r (.format i)).replied h .selectFormat .ok []))) ∧
  (∀ (s : State) (h : Header) (r : Room) (a : Payload), s.admits h r → (s.room r).path.state = .live →
    (s.room r).dip.stage = .idle →
    (∀ m, Source.ofCode a.toNat = some m →
      exec (.selectSource h [a]) s = .next ((if (s.room r).activeSource = m then s else s.modRoom r fun rm => { rm with
        dip := { rm.dip with srcSlot := some m, stage := .descent, step := 0 } }).replied h .selectSource .ok [])) ∧
    (∀ n, BankName.ofCode a.toNat = some n →
      exec (.selectBank h [a]) s = .next ((if (s.room r).bankInService = n then s else s.modRoom r fun rm => { rm with
        dip := { rm.dip with bankSlot := some n, stage := .descent, step := 0 } }).replied h .selectBank .ok [])) ∧
    ∀ i : Fin 4, a.toNat = i.val →
      ((s.room r).formats[i].mode = .mx4 → s.profiles[(s.room r).formats[i].profile].loaded ≠ 15#4 →
        exec (.selectFormat h [a]) s = .next (s.replied h .selectFormat .wrongState [])) ∧
      ((s.room r).formats[i].mode = .discrete ∨ s.profiles[(s.room r).formats[i].profile].loaded = 15#4 →
        exec (.selectFormat h [a]) s = .next ((if (s.room r).activeFormat = i then s else s.modRoom r fun rm => { rm with
          dip := { rm.dip with fmtSlot := some i, stage := .descent, step := 0 } }).replied h .selectFormat .ok []))) ∧
  (∀ (s : State) (r : Room) (i : Fin 4) (m : Source) (n : BankName), (s.room r).path.state = .live →
    let rm := s.room r
    ((s.room r).dip.stage = .descent →
      s.handOn r (.format i) = s.modRoom r (fun rm => { rm with
        dip := { rm.dip with fmtSlot := if rm.activeFormat = i then none else some i } }) ∧
      s.handOn r (.source m) = s.modRoom r (fun rm => { rm with
        dip := { rm.dip with srcSlot := if rm.activeSource = m then none else some m } }) ∧
      s.handOn r (.bank n) = s.modRoom r (fun rm => { rm with
        dip := { rm.dip with bankSlot := if rm.bankInService = n then none else some n } })) ∧
    ((s.room r).dip.stage = .ascent →
      s.handOn r (.format i) = s.modRoom r (fun rm => { rm with
        dip := if rm.activeFormat = i then { rm.dip with fmtSlot := none }
          else { rm.dip with fmtSlot := some i, followOn := true } }) ∧
      s.handOn r (.source m) = s.modRoom r (fun rm => { rm with
        dip := if rm.activeSource = m then { rm.dip with srcSlot := none }
          else { rm.dip with srcSlot := some m, followOn := true } }) ∧
      s.handOn r (.bank n) = s.modRoom r (fun rm => { rm with
        dip := if rm.bankInService = n then { rm.dip with bankSlot := none }
          else { rm.dip with bankSlot := some n, followOn := true } })))

/-- A selection in a room that is not LIVE is applied at once: a source with the switch of the timecode lane (R41, R47), a format
with the zeroing of an entry into MX4 (R74), a bank with the swap: zero history, OVER and CLIP conditions that are not raised
returned to QUIET, and BANK_SWAPPED (R68, R101, R102, R103).

The bottom of a dip applies every filled slot with these effects, empties the slots and begins the ascent with d kept; the swap of
a filled bank slot is announced with the bank that leaves and the one that comes (R47, R67, R74, R101 to R103).

Where the period's chains come ahead of the change, a zeroing discards what they write (R58, R81); at a bottom that enters MX4 their decode
computation starts from the zeros instead, and the new entry is in force for them (R74). That a command puts the chains ahead is the
model's form (assumption 18, DESIGN CHOICE). -/
def Obligations.SelectionsApplied : Prop :=
  (∀ (s : State) (r : Room), (s.room r).path.state ≠ .live →
    (∀ m, (s.room r).activeSource ≠ m → s.handOn r (.source m) = s.modRoom r fun rm => { rm with
      activeSource := m, tc := rm.tc.switch (rm.mapOf rm.activeSource).tc (rm.mapOf m).tc }) ∧
    (∀ i, (s.room r).activeFormat ≠ i → s.handOn r (.format i) = s.modRoom r fun rm => { rm with
      activeFormat := i
      decode := if rm.formats[rm.activeFormat].mode = .discrete ∧ rm.formats[i].mode = .mx4 then .zero else rm.decode
      ahead := if rm.formats[rm.activeFormat].mode = .discrete ∧ rm.formats[i].mode = .mx4 then
        rm.ahead.map fun e => { e with decodeStands := false } else rm.ahead }) ∧
    (∀ n, (s.room r).bankInService ≠ n →
      s.handOn r (.bank n) = (s.modRoom r fun rm => { rm with
        bankInService := n, histA := .zero, histB := .zero
        ahead := rm.ahead.map fun e => { e with histStands := false }
        conds := Vector.ofFn fun k => { rm.conds[k] with
          onOver := if rm.conds[k].onOver.phase = .raised ∨ rm.conds[k].onOver.phase = .heldAck then rm.conds[k].onOver
            else .quiet
          onClip := if rm.conds[k].onClip.phase = .raised ∨ rm.conds[k].onClip.phase = .heldAck then rm.conds[k].onClip
            else .quiet } }).notify r (.bankSwapped (s.room r).bankInService n)) ∧
    ∀ c, (s.room r).isActive c = true → s.handOn r c = s) ∧
  (∀ (s : State) (r : Room), s.periodOpen = true → (s.room r).dip.stage = .descent → 240 ≤ (s.room r).dip.step →
    let rm := s.room r
    let fmt := rm.dip.fmtSlot.getD rm.activeFormat
    let src := rm.dip.srcSlot.getD rm.activeSource
    let quieten (x : Cond) : Cond := if x.phase = .raised ∨ x.phase = .heldAck then x else .quiet
    let applied : State := s.modRoom r fun _ => { rm with
      activeFormat := fmt
      activeSource := src
      bankInService := rm.dip.bankSlot.getD rm.bankInService
      dip := { rm.dip with stage := .ascent, step := 0, fmtSlot := none, srcSlot := none, bankSlot := none }
      tc := rm.tc.switch (rm.mapOf rm.activeSource).tc (rm.mapOf src).tc
      decode := if rm.formats[rm.activeFormat].mode = .discrete ∧ rm.formats[fmt].mode = .mx4 then .zero else rm.decode
      ahead := rm.ahead.map fun e => { e with
        histStands := if rm.dip.bankSlot = none then e.histStands else false
        decode := if rm.formats[rm.activeFormat].mode = .discrete ∧ rm.formats[fmt].mode = .mx4 then .zero else e.decode
        decodeStands := if rm.formats[rm.activeFormat].mode = .discrete ∧ rm.formats[fmt].mode = .mx4 then true
          else e.decodeStands }
      histA := if rm.dip.bankSlot = none then rm.histA else .zero
      histB := if rm.dip.bankSlot = none then rm.histB else .zero
      conds := if rm.dip.bankSlot = none then rm.conds else Vector.ofFn fun k => { rm.conds[k] with
        onOver := quieten rm.conds[k].onOver, onClip := quieten rm.conds[k].onClip } }
    exec (.dipBottom r) s = .next (match rm.dip.bankSlot with
      | none => applied
      | some n => applied.notify r (.bankSwapped rm.bankInService n)))

/-! ### Formats, banks and the processing budget (04, 05, 06) -/

/-- An accepted SET_FORMAT_ENTRY writes the entry, zeroes the decode state where the active entry of a room in OFF enters MX4,
and brings commitment and committed total up to date; the same load above the budget is refused with the four numbers and
changes nothing (R71, R72, R110, R111, R113). An entry in service, which is active in a room that is not OFF or stands in the format
slot, is refused with IN_SERVICE, ahead of the budget (R71). The charge is 40 where any of the four entries is MX4, and the larger of the
ACTIVE counts of the two banks (R109). The widths of the numbers in the two replies are the model's reading (assumption 9, DEDUCED). -/
def Obligations.FormatEntryWritten : Prop :=
  (∀ (s : State) (h : Header) (r : Room) (i : Fin 4) (e : FormatEntry) (body : List Payload), s.admits h r →
    body.length = 19 → arg body 0 = i.val → Mode.ofCode (arg body 1) = some e.mode → arg body 2 = e.profile.val →
    (∀ k : Chan, OutSrc.ofCode (arg body (3 + k.val)) = some e.map[k]) →
    (e.mode = .discrete → ∀ (k : Chan) (o : DecOut), e.map[k] ≠ .decode o) →
    ((s.room r).activeFormat = i ∧ (s.room r).path.state ≠ .off ∨ (s.room r).dip.fmtSlot = some i →
      exec (.setFormatEntry h body) s = .next (s.replied h .setFormatEntry .inService [])) ∧
    (¬((s.room r).activeFormat = i ∧ (s.room r).path.state ≠ .off) → (s.room r).dip.fmtSlot ≠ some i →
    let rm := s.room r
    let new : RoomRec := { rm with
      formats := rm.formats.set i.val e i.isLt
      decode := if rm.activeFormat = i ∧ rm.formats[i].mode = .discrete ∧ e.mode = .mx4 then .zero else rm.decode }
    let total := s.committedTotal + new.charge - rm.commitment
    (total ≤ 1280 ∨ total ≤ s.committedTotal →
      exec (.setFormatEntry h body) s = .next (({ (s.modRoom r fun _ => { new with commitment := new.charge }) with
        committedTotal := total } : State).replied h .setFormatEntry .ok [.bits 8 new.charge, .bits 11 total])) ∧
    (1280 < total → s.committedTotal < total →
      exec (.setFormatEntry h body) s = .next (s.replied h .setFormatEntry .overBudget
        [.bits 8 rm.commitment, .bits 8 new.charge, .bits 11 s.committedTotal, .bits 11 (1280 - s.committedTotal)])))) ∧
  ∀ rm : RoomRec,
    ((∃ i : Fin 4, rm.formats[i].mode = .mx4) → rm.decodeTerm = 40) ∧ ((∀ i : Fin 4, rm.formats[i].mode = .discrete) → rm.decodeTerm = 0) ∧
    rm.charge = rm.decodeTerm + max rm.bankA.active rm.bankB.active

/-- SET_TRIMS, CLEAR_BANK and COPY_BANK of a standby bank that no dip waits for: what the bank holds afterwards, with the
commitment and the committed total brought up to date; none of the three is refused for the budget (R95 to R97, R110, R112).

A load of the bank in service is refused with IN_SERVICE, and of the bank in the bank slot with BANK_BUSY, and nothing
changes (R92). -/
def Obligations.BankLoadsJudged : Prop :=
  (∀ (s : State) (h : Header) (r : Room) (a : Payload) (n : BankName), s.admits h r → s.budgetOk →
    BankName.ofCode a.toNat = some n → (s.room r).bankInService ≠ n → (s.room r).dip.bankSlot ≠ some n →
    (∀ trims : List Payload, trims.length = 16 →
      ∃ bk, exec (.setTrims h (a :: trims)) s = .next ((s.modRoom r fun rm => rm.setBank n bk).replied h .setTrims .ok
          ((trims.map fun x => .bits 17 (min 131071 x.toNat)) ++
            [.bits 8 (s.room r).commitment, .bits 11 s.committedTotal])) ∧
        bk.active = ((s.room r).bank n).active ∧ bk.rejected = ((s.room r).bank n).rejected ∧
        ∀ k : Chan, bk.chans[k] = { ((s.room r).bank n).chans[k] with trim := min 131071 (trims.getD k.val 0).toNat }) ∧
    (∀ k : Kind, k = .clearBank ∨ k = .copyBank →
      ∃ c total, exec (if k = .clearBank then .clearBank h [a] else .copyBank h [a]) s =
          .next (({ (s.modRoom r fun rm => { rm.setBank n
            (if k = .clearBank then .cleared else rm.bank rm.bankInService) with commitment := c }) with
              committedTotal := total } : State).replied h k .ok
            ((if k = .copyBank then [.bits 8 ((s.room r).bank (s.room r).bankInService).active,
              .bits 8 ((s.room r).bank (s.room r).bankInService).rejected] else []) ++ [.bits 8 c, .bits 11 total])) ∧
        c = (s.room r).decodeTerm + ((s.room r).bank (s.room r).bankInService).active ∧ c ≤ (s.room r).commitment ∧
        total = s.committedTotal - ((s.room r).commitment - c))) ∧
  (∀ (s : State) (h : Header) (r : Room) (a : Payload) (n : BankName) (res : Result), s.admits h r →
    BankName.ofCode a.toNat = some n →
    ((s.room r).bankInService = n ∧ res = .inService) ∨
      ((s.room r).bankInService ≠ n ∧ (s.room r).dip.bankSlot = some n ∧ res = .bankBusy) →
    exec (.clearBank h [a]) s = .next (s.replied h .clearBank res []) ∧
    exec (.copyBank h [a]) s = .next (s.replied h .copyBank res []) ∧
    (∀ trims : List Payload, trims.length = 16 →
      exec (.setTrims h (a :: trims)) s = .next (s.replied h .setTrims res [])) ∧
    ∀ (b c d : Payload) (coefs : List Payload), b.toNat ≤ 15 → 1 ≤ c.toNat → 1 ≤ d.toNat → c.toNat + d.toNat ≤ 9 →
      coefs.length = 5 * d.toNat →
      exec (.loadSections h (a :: b :: c :: d :: coefs)) s = .next (s.replied h .loadSections res []))

/-- An accepted LOAD_SECTIONS writes its slots with their coefficients and tags and leaves every other slot, trim and channel; the
counts follow the tags, and commitment and total the counts (R89, R90, R93, R94, R110). A load that would raise the committed
total above 1,280 is refused with the tags and the numbers, and changes nothing (R111, R113). A count of a bank is the number of its slots, in
all sixteen channels, with that tag (R90). The length of the tag list in 4 bits, the codes of the tags and the body of the refusal, with
the tags and the count of R94 ahead of the numbers of R113, are the model's reading (assumption 9, DEDUCED). -/
def Obligations.SectionsLoaded : Prop :=
  (∀ (s : State) (h : Header) (r : Room) (n : BankName) (c : Chan) (body : List Payload), s.admits h r →
    4 ≤ body.length → body.length = 4 + 5 * arg body 3 → BankName.ofCode (arg body 0) = some n → arg body 1 = c.val →
    1 ≤ arg body 2 → 1 ≤ arg body 3 → arg body 2 + arg body 3 ≤ 9 →
    (s.room r).bankInService ≠ n → (s.room r).dip.bankSlot ≠ some n →
    ∃ bk : Bank,
      (let new := (s.room r).setBank n bk
       let total := s.committedTotal + new.charge - (s.room r).commitment
       (total ≤ 1280 ∨ total ≤ s.committedTotal →
        exec (.loadSections h body) s = .next (({ (s.modRoom r fun _ => { new with commitment := new.charge }) with
          committedTotal := total } : State).replied h .loadSections .ok
          (tagFields ((List.range (arg body 3)).map fun j => (coefsAt body j).tag) ++
            [.bits 8 bk.active, .bits 8 bk.rejected, .bits 8 new.charge, .bits 11 total]))) ∧
       (1280 < total → s.committedTotal < total →
        exec (.loadSections h body) s = .next (s.replied h .loadSections .overBudget
          (tagFields ((List.range (arg body 3)).map fun j => (coefsAt body j).tag) ++
            [.bits 8 bk.active, .bits 8 (s.room r).commitment, .bits 8 new.charge, .bits 11 s.committedTotal,
              .bits 11 (1280 - s.committedTotal)])))) ∧
      bk.ok ∧ (∀ k : Chan, k ≠ c → bk.chans[k] = ((s.room r).bank n).chans[k]) ∧
      bk.chans[c].trim = ((s.room r).bank n).chans[c].trim ∧
      ∀ i : Fin 8, bk.chans[c].slots[i] =
        if arg body 2 ≤ i.val + 1 ∧ i.val + 1 < arg body 2 + arg body 3 then
          ⟨coefsAt body (i.val + 1 - arg body 2), (coefsAt body (i.val + 1 - arg body 2)).tag⟩
        else ((s.room r).bank n).chans[c].slots[i]) ∧
  (∀ (tag : Tag) (chans : Vector ChanEq 16), countTags tag chans =
    (Finset.univ.filter fun x : Chan × Fin 8 => chans[x.1].slots[x.2].tag = tag).card) ∧
  (∀ b : Bank, b.ok ↔ b.active = countTags .active b.chans ∧ b.rejected = countTags .rejected b.chans) ∧
  (∀ (body : List Payload) (j : Nat), coefsAt body j =
    let word (i : Nat) : Int := ((body.getD (4 + 5 * j + i) 0).extractLsb' 0 24).toInt
    ⟨word 0, word 1, word 2, word 3, word 4⟩) ∧
  ∀ tags : List Tag, tagFields tags = .bits 4 tags.length ::
    tags.map fun t => .bits 2 (match t with | .empty => 0 | .unity => 1 | .rejected => 2 | .active => 3)

/-- The tag of a slot: UNITY for no filter at all, else ACTIVE when |a2| < 4,194,304 and |a1| < 4,194,304 + a2, both strictly,
else REJECTED (R89). -/
def Obligations.TagByTests : Prop :=
∀ c : Coefs,
    (c = ⟨4194304, 0, 0, 0, 0⟩ → c.tag = .unity) ∧
    (c ≠ ⟨4194304, 0, 0, 0, 0⟩ → |c.a2| < 4194304 → |c.a1| < 4194304 + c.a2 → c.tag = .active) ∧
    (c ≠ ⟨4194304, 0, 0, 0, 0⟩ → 4194304 ≤ |c.a2| ∨ 4194304 + c.a2 ≤ |c.a1| → c.tag = .rejected)

/-- The demand of a room as it stands, by its chain's running, its active format entry and its bank in service, never exceeds its
commitment, and those of the twelve rooms together never exceed the committed total, nor 1,280 (R115). The demand of a period whose
chains were put ahead of a swap is that of the old bank and is not what this says (assumption 19, DESIGN CHOICE). -/
def Obligations.DemandWithinBudget : Prop :=
∀ s : State, s.budgetOk →
    (∀ r : Room, (s.room r).demandNow ≤ (s.room r).commitment) ∧
    ((List.finRange 12).map fun r => (s.room r).demandNow).sum ≤ s.committedTotal ∧
    ((List.finRange 12).map fun r => (s.room r).demandNow).sum ≤ 1280

/-! ### Meters and alarms (07) -/

/-- The block end: the block number gains one, the next block begins with every lane's mark, every running peak and every clip
count cleared; an evaluated room's P, C and LOSS become its last ones with the block's number, and its mask loses a block;
the last ones and the mask of every other room stay (R36, R117 to R120, R129). An output channel is lost with its programme channel, and
one with a decode output where programme channel 0 or 1 is lost (R120); a programme channel is lost when the active map, as it stands, maps
it to a lane without its mark, and one mapped to NONE is not (R35, R36).

The rooms are evaluated one after another. Of an evaluated room the conditions SILENCE, OVER, CLIP and LOSS of the channels are
judged in ascending order with the truth and the hold of R124, from the block's P, C and LOSS, save the kinds that its mask holds back
(R126, R129); of every room the RACK condition is judged, which is true in HALTED with RACK_LOST and has a hold of 1 (R127). The
conditions that were raised are handed to the Cue Engine (R134). The order of the rooms is the command's (assumption 5, DESIGN
CHOICE); each room comes once.

METER_BLOCK_END takes it once the block has its 480 periods, or in the last of them once every chain that runs in it comes ahead of it and
no format change is due that those chains are to have: the meters then take those chains first, with the period's words, and the
block that begins has its first period after that one (R52, R56, R74, R117, R118; the model's own choice, assumptions 3 and 18; SAMPLE_PERIOD
may take it ahead of the last period's own events). -/
def Obligations.BlockEndTaken : Prop :=
  (∀ (s : State) (order : List Room),
    let t := s.blockEnd order
    (s.blockEndDue = true → exec (.meterBlockEnd order) s = .next t) ∧
    (s.blockEndDue = false → s.periodOpen = true → s.blockPos = 479 →
      (∀ q : Room, (s.room q).path.state = .live ∨ (s.room q).path.state = .parked →
        (s.room q).ahead ≠ none ∧ ((s.room q).dip.fmtSlot = none ∨
          (((s.room q).dip.stage ≠ .descent ∨ (s.room q).dip.step < 240) ∧
            ((s.room q).path.phase = .rampingIn ∨ ∀ x, (s.room q).path.ramp = some x → x.n < x.len)))) →
      ∃ v : State, exec (.meterBlockEnd order) s = .next { (s.meteredBy v).blockEnd order with blockEnded := true } ∧
        v = { s with rooms := v.rooms } ∧
        ∀ r : Room, v.room r = { s.room r with prog := (v.room r).prog } ∧ ∀ c : Chan, (v.room r).prog[c] =
          if r ∈ s.waiting then match (s.room r).activeMap.prog[c] with
            | none => 0
            | some l => if laneGood s.words[l] then laneSample s.words[l] else s.lanes[l].hold
          else (s.room r).prog[c]) ∧
    ({ s with
      blockNumber := s.blockNumber + 1, blockPos := 0, blockEndDue := false, lanes := t.lanes,
      handovers := t.handovers } : State).onlyRooms t ∧
    (∀ l : Lane, t.lanes[l] = { s.lanes[l] with mark := false }) ∧
    ∀ (r : Room),
      let lost (c : Chan) : Bool := match (s.room r).activeMap.prog[c] with
        | some l => !s.lanes[l].mark
        | none => false
      let ev := ((s.room r).path.state = .live ∨ (s.room r).path.state = .parked) ∧
        (s.room r).path.enteredInBlock = false
      t.room r = { s.room r with
        path := { (s.room r).path with enteredInBlock := false }, meters := (t.room r).meters
        lastEval := (t.room r).lastEval, mask := (t.room r).mask, conds := (t.room r).conds
        rackCond := (t.room r).rackCond, unlisted := (t.room r).unlisted } ∧
      (ev → (t.room r).lastEval = some s.blockNumber ∧
        (t.room r).mask.remaining = (s.room r).mask.remaining - 1 ∧
        ∀ k : Chan, (t.room r).meters[k] = ⟨0, 0, (s.room r).meters[k].peak, (s.room r).meters[k].clips,
          match (s.room r).entry.map[k] with
          | .program c => lost c
          | .decode _ => lost 0 || lost 1
          | .none => false⟩) ∧
      (¬ev → (t.room r).lastEval = (s.room r).lastEval ∧ (t.room r).mask = (s.room r).mask ∧
        (t.room r).conds = (s.room r).conds ∧
        ∀ k : Chan, (t.room r).meters[k] = { (s.room r).meters[k] with peak := 0, clips := 0 })) ∧
  (∀ (s : State) (order : List Room),
    let t := s.blockEnd order
    let u := (visit order).foldl (fun x r => x.evaluate r) s
    (visit order).Perm (List.finRange 12) ∧ t.alarms = u.alarms ∧ t.handovers = u.handovers ∧ t.mgmt = u.mgmt ∧
    ∀ r : Room, (t.room r).conds = (u.room r).conds ∧ (t.room r).rackCond = (u.room r).rackCond ∧
      (t.room r).unlisted = (u.room r).unlisted) ∧
  (∀ (s : State) (r : Room),
    let rm := s.room r
    let ev : Bool := decide (rm.path.state = .live ∨ rm.path.state = .parked) && !rm.path.enteredInBlock
    let gone (c : Chan) : Bool := match rm.activeMap.prog[c] with
      | some l => !s.lanes[l].mark
      | none => false
    let lost (k : Chan) : Bool := match rm.entry.map[k] with
      | .program c => gone c
      | .decode _ => gone 0 || gone 1
      | .none => false
    let truth (k : Chan) (x : LevelKind) : Bool :=
      let a := rm.alarmTable[k]
      match x with
      | .silence => a.armed.getLsbD 0 && decide (rm.meters[k].peak < a.silenceFloor)
      | .over => a.armed.getLsbD 1 && decide (a.overLevel ≤ rm.meters[k].peak)
      | .clip => a.armed.getLsbD 2 && decide (a.clipLimit ≤ rm.meters[k].clips)
      | .loss => a.armed.getLsbD 3 && lost k
    let hold (k : Chan) (x : LevelKind) : Nat := match x with
      | .silence => rm.alarmTable[k].silenceHold
      | .over => rm.alarmTable[k].overHold
      | .clip | .loss => 1
    let held (x : LevelKind) : Bool := decide (0 < rm.mask.remaining) && rm.mask.kinds.getLsbD (match x with
      | .silence => 0 | .over => 1 | .clip => 2 | .loss => 3)
    let captured : State := s.modRoom r fun rm => { rm with
      meters := Vector.ofFn fun k => { rm.meters[k] with
        lastP := rm.meters[k].peak, lastC := rm.meters[k].clips, lastLoss := lost k }
      lastEval := some s.blockNumber }
    let pairs : List (Chan × LevelKind) :=
      (List.finRange 16).flatMap fun k => [(k, .silence), (k, .over), (k, .clip), (k, .loss)]
    let levels := if ev then pairs.foldl (fun acc x => if held x.2 then acc else
        State.judge r (.level x.1 x.2) (truth x.1 x.2) (hold x.1 x.2) rm.meters[x.1].peak rm.meters[x.1].clips acc) (captured, [])
      else (s, [])
    let out := State.judge r .rack (decide (rm.path.state = .halted ∧ rm.path.halt = .rackLost)) 1 0 0 levels
    let u : State := if ev then out.1.modRoom r fun rm => { rm with
        mask := if rm.mask.remaining ≤ 1 then ⟨0, 0⟩ else { rm.mask with remaining := rm.mask.remaining - 1 } } else out.1
    s.evaluate r = if out.2 = [] then u else { u with handovers := u.handovers ++ [⟨r, out.2⟩] })

/-- The judgement of one condition by its phase and truth (R125), with the clearing of R133: it is raised from QUIET with a hold
of 1 and from PENDING as its run reaches the hold; RAISED and HELD_ACK stay while true; false brings every phase to QUIET.

The alarm list at a raising: a CLEARED entry of the condition is raised again in its place; a new entry joins the tail; a full
list gives up its oldest CLEARED entry; a full list of ACTIVE entries is left alone and the raising is unlisted (R131). That an
ACTIVE entry of the condition, which no run reaches, is treated as a CLEARED one is the model's choice (assumption 11).

A raising: the list takes the raising with the block's number, the condition is RAISED, ALARM_RAISED carries P, C and the raise
count, and an unlisted one is marked, counted and followed by ALARM_LIST_FULL; nothing else changes (R131, R132, R134).

A clearing: the condition is QUIET, a listed one's entry CLEARED in its place, ALARM_CLEARED says whether it was listed; nothing
else changes (R133, R134). -/
def Obligations.AlarmConditionsJudged : Prop :=
  (∀ (s : State) (r : Room) (x : CondId) (hold p n : Nat) (l : List CondId),
    let c := (s.room r).cond x
    (c.phase = .quiet → hold ≤ 1 → State.judge r x true hold p n (s, l) = (s.raiseCond r x p n, l ++ [x])) ∧
    (c.phase = .quiet → 1 < hold →
      State.judge r x true hold p n (s, l) = (s.modRoom r fun rm => rm.putCond x ⟨.pending, 1, false⟩, l)) ∧
    (c.phase = .pending → hold ≤ c.run + 1 → State.judge r x true hold p n (s, l) = (s.raiseCond r x p n, l ++ [x])) ∧
    (c.phase = .pending → c.run + 1 < hold →
      State.judge r x true hold p n (s, l) = (s.modRoom r fun rm => rm.putCond x { c with run := c.run + 1 }, l)) ∧
    (c.phase = .raised ∨ c.phase = .heldAck → State.judge r x true hold p n (s, l) = (s, l)) ∧
    (c.phase = .raised → State.judge r x false hold p n (s, l) = (s.clearCond r x, l)) ∧
    (c.phase ≠ .raised → State.judge r x false hold p n (s, l) = (s.modRoom r fun rm => rm.putCond x .quiet, l))) ∧
  (∀ (pre post l : List AlarmEntry) (e : AlarmEntry) (r : Room) (x : CondId) (blk : BitVec 32) (p : Nat),
    ((∀ d ∈ pre ++ post, ¬(d.room = r ∧ d.cond = x)) → e.room = r → e.cond = x →
      raiseList (pre ++ e :: post) r x blk p =
        (pre ++ { e with active := true, lastRaised := blk, count := min 255 (e.count + 1), p := p } :: post,
          some (min 255 (e.count + 1)))) ∧
    ((∀ d ∈ l, ¬(d.room = r ∧ d.cond = x)) → l.length < 48 →
      raiseList l r x blk p = (l ++ [⟨r, x, true, blk, blk, 1, p⟩], some 1)) ∧
    ((∀ d ∈ pre ++ e :: post, ¬(d.room = r ∧ d.cond = x)) → 48 ≤ (pre ++ e :: post).length →
      (∀ d ∈ pre, d.active = true) → e.active = false →
      raiseList (pre ++ e :: post) r x blk p = (pre ++ post ++ [⟨r, x, true, blk, blk, 1, p⟩], some 1)) ∧
    ((∀ d ∈ l, ¬(d.room = r ∧ d.cond = x)) → 48 ≤ l.length → (∀ d ∈ l, d.active = true) →
      raiseList l r x blk p = (l, none))) ∧
  (∀ (s : State) (r : Room) (x : CondId) (p n : Nat),
    let out := raiseList s.alarms r x s.blockNumber p
    let t := s.raiseCond r x p n
    let who := some (r, (s.room r).snapshot)
    s.onlyRoom t r ∧ t.alarms = out.1 ∧
    t.room r = { s.room r with
      conds := (t.room r).conds, rackCond := (t.room r).rackCond
      unlisted := if out.2 = none then (s.room r).unlisted + 1 else (s.room r).unlisted } ∧
    (∀ y : CondId, (t.room r).cond y = if y = x then ⟨.raised, 0, decide (out.2 = none)⟩ else (s.room r).cond y) ∧
    (∀ k, out.2 = some k → s.mgmt.notices.length < 32 → t.mgmt = { s.mgmt with
      notices := s.mgmt.notices ++ [⟨who, .alarmRaised x p n (some k), s.mgmt.dropCount⟩], dropCount := 0 }) ∧
    (out.2 = none → s.mgmt.notices.length ≤ 30 → t.mgmt = { s.mgmt with
      notices := s.mgmt.notices ++ [⟨who, .alarmRaised x p n none, s.mgmt.dropCount⟩,
        ⟨who, .alarmListFull x ((s.room r).unlisted + 1), 0⟩], dropCount := 0 })) ∧
  (∀ (s : State) (r : Room) (x : CondId),
    let listed := !((s.room r).cond x).unlisted
    let t := s.clearCond r x
    s.onlyRoom t r ∧
    t.alarms = s.alarms.map (fun e =>
      if listed = true ∧ e.room = r ∧ e.cond = x then { e with active := false } else e) ∧
    t.room r = { s.room r with conds := (t.room r).conds, rackCond := (t.room r).rackCond } ∧
    (∀ y : CondId, (t.room r).cond y = if y = x then .quiet else (s.room r).cond y) ∧
    (s.mgmt.notices.length < 32 → t.mgmt = { s.mgmt with
      notices := s.mgmt.notices ++ [⟨some (r, (s.room r).snapshot), .alarmCleared x listed s.blockNumber,
        s.mgmt.dropCount⟩], dropCount := 0 }))

/-- SET_ALARM_ENTRY writes the clamped values to the named channels and returns their QUIET and PENDING conditions to QUIET
(R122); that the reply gives the five values in the order of R121 is the model's reading (assumption 9, DEDUCED). MASK_ALARMS replaces
the mask, clamped, and an empty set ends it (R128). -/
def Obligations.AlarmTablesWritten : Prop :=
∀ (s : State) (h : Header) (r : Room) (a b c d e f g : Payload), s.admits h r →
    (a.toNat % 65536 ≠ 0 →
      let cfg : AlarmCfg := ⟨BitVec.ofNat 4 b.toNat, min 8388608 c.toNat, max 1 (min 6000 d.toNat), min 8388608 e.toNat,
        max 1 (min 100 f.toNat), max 1 (min 480 g.toNat)⟩
      let quieten (x : Cond) : Cond := if x.phase = .raised ∨ x.phase = .heldAck then x else .quiet
      exec (.setAlarmEntry h [a, b, c, d, e, f, g]) s = .next ((s.modRoom r fun rm => { rm with
        alarmTable := Vector.ofFn fun k => if a.toNat.testBit k.val then cfg else rm.alarmTable[k]
        conds := Vector.ofFn fun k => if a.toNat.testBit k.val then
          ⟨quieten rm.conds[k].onSilence, quieten rm.conds[k].onOver, quieten rm.conds[k].onClip,
            quieten rm.conds[k].onLoss⟩ else rm.conds[k] }).replied h .setAlarmEntry .ok
        [.bits 24 cfg.silenceFloor, .bits 13 cfg.silenceHold, .bits 24 cfg.overLevel, .bits 7 cfg.overHold,
          .bits 9 cfg.clipLimit])) ∧
    let kinds := BitVec.ofNat 4 a.toNat
    let n := max 1 (min 6000 b.toNat)
    (kinds ≠ 0 →
      exec (.maskAlarms h [a, b]) s = .next ((s.modRoom r fun rm => { rm with mask := ⟨kinds, n⟩ }).replied h .maskAlarms .ok
        [.bits 4 kinds.toNat, .bits 13 n])) ∧
    (kinds = 0 →
      exec (.maskAlarms h [a, b]) s = .next ((s.modRoom r fun rm => { rm with mask := ⟨0, 0⟩ }).replied h .maskAlarms .ok
        [.bits 4 0, .bits 13 0]))

/-- ACK_ALARM, one condition or all, at level 2 or below, also while the supply warning is asserted: each named condition's
entry leaves the list, each named RAISED condition becomes HELD_ACK, and nothing else changes; the reply carries the two
numbers (R135, R136), in 6 and 7 bits as the model reads it (assumption 9, DEDUCED). -/
def Obligations.AlarmsAcknowledged : Prop :=
  ∀ (s : State) (h : Header) (r : Room) (a b : Payload) (names : CondId → Bool), s.listening → s.readable →
    namesRoom h r → h.level.toNat ≤ 2 →
    ((a.toNat = 268435455 ∧ ∀ x, names x = true) ∨
      ∃ x, a.toNat ≠ 268435455 ∧ CondId.ofCodes a.toNat b.toNat = some x ∧ ∀ y, names y = true ↔ y = x) →
    ∃ u : State, exec (.ackAlarm h [a, b]) s = .next (u.replied h .ackAlarm .ok
        [.bits 6 (s.alarms.length - u.alarms.length),
          .bits 7 (allConds.filter fun x => names x && decide (((s.room r).cond x).phase = .raised)).length]) ∧
      u.alarms = s.alarms.filter (fun e => !(decide (e.room = r) && names e.cond)) ∧
      u = { s with alarms := u.alarms, rooms := u.rooms } ∧ (∀ r', r' ≠ r → u.room r' = s.room r') ∧
      u.room r = { s.room r with conds := (u.room r).conds, rackCond := (u.room r).rackCond } ∧
      ∀ x, (u.room r).cond x =
        if names x = true ∧ ((s.room r).cond x).phase = .raised then ⟨.heldAck, 0, false⟩ else (s.room r).cond x

/-- CUE_GO fires the named cue at once, at a level that the cue's gate passes, and answers with its number and the actions that
failed; the room's guard plays no part (R158, R198).

A firing announces itself before its actions, performs its actions in order, each on the state the one before it left, and reports
the failed ones, with their indices from 1, after the last (R160, R162). A failed action changes nothing (R161).

What each action does in the cue's room (R144, R161; CONTACT stands with the contacts): SET_FORMAT fails with WRONG_STATE for an MX4
entry whose profile is not READY, and SET_FORMAT, SET_SOURCE and SELECT_BANK are otherwise handed to the dip machine; FADE and MUTE
act as SET_GAIN and SET_MUTE with their clamps, MASK as MASK_ALARMS; GO is judged as the request, and a refused one fails with its
reason, which is WRONG_STATE for GO_LIVE in PROVE (R160; assumption 17, DESIGN CHOICE); TIMER_START and TIMER_STOP fail with BAD_FIELD
on a timer field above 3.

ALARM_HANDOVER: the first hand-over of the room leaves. While no cue may fire nothing else happens; otherwise each of its raised
conditions in turn fires every cue of the list that matches it, in list order, each whole before the next (R156, R163, R172). A
cue matches by the kind, with the channel or ANY (R156). That no cue fires while the Table Store initialises or an engine restart
runs is the model's reading of R175 (assumption 12, DEDUCED), and that each condition's cues are looked up as its turn comes its
choice (assumption 11, DESIGN CHOICE). -/
def Obligations.CuesFire : Prop :=
  (∀ (s : State) (h : Header) (r : Room) (a : Payload) (c : Cue), s.listening → s.operational → namesRoom h r →
    1 ≤ a.toNat → a.toNat ≤ 9999 →
    (findCue (s.room r).list a.toNat = some c → h.level.toNat ≤ c.gate.val →
      exec (.cueGo h [a]) s = .next ((s.fire r c (.cueGo h.originator)).st.replied h .cueGo .ok
        (.bits 14 a.toNat :: failedFields (s.fire r c (.cueGo h.originator)).failed))) ∧
    (findCue (s.room r).list a.toNat = none →
      exec (.cueGo h [a]) s = .next (s.replied h .cueGo .noSuchCue []))) ∧
  (∀ (s : State) (r : Room) (c : Cue) (why : Cause),
    let said := s.notify r (.cueFired c.number c.trigger why)
    let before (n : Nat) : State := (c.actions.take n).foldl (fun u a => (u.perform r c.number a).1) said
    let failed : List (Nat × Result) := c.actions.zipIdx.filterMap fun x =>
      let res := ((before x.2).perform r c.number x.1).2
      if res = .ok then none else some (x.2 + 1, res)
    (s.fire r c why).failed = failed ∧
    (s.fire r c why).st = if failed = [] then before c.actions.length
      else (before c.actions.length).notify r (.cueFailed c.number why failed)) ∧
  (∀ (s : State) (r : Room) (number : Nat) (a : Action), (s.perform r number a).2 ≠ .ok → (s.perform r number a).1 = s) ∧
  (∀ (s : State) (r : Room) (number : Nat),
    let rm := s.room r
    let gained (g : Gain) : State × Result := (s.modRoom r fun rm => { rm with gain := g }, .ok)
    (∀ i : Fin 4,
      (rm.formats[i].mode = .mx4 → s.profiles[rm.formats[i].profile].loaded ≠ 15#4 →
        s.perform r number (.setFormat i) = (s, .wrongState)) ∧
      (rm.formats[i].mode = .discrete ∨ s.profiles[rm.formats[i].profile].loaded = 15#4 →
        s.perform r number (.setFormat i) = (s.handOn r (.format i), .ok))) ∧
    (∀ m, s.perform r number (.setSource m) = (s.handOn r (.source m), .ok)) ∧
    (∀ n, s.perform r number (.selectBank n) = (s.handOn r (.bank n), .ok)) ∧
    (∀ (a : BitVec 7) (b : BitVec 16) (step : Fin 101), step.val = min 100 a.toNat →
      (rm.gain.mute = true → s.perform r number (.fade a b) = gained { rm.gain with step := step }) ∧
      (rm.gain.mute = false → b.toNat = 0 →
        s.perform r number (.fade a b) = gained { rm.gain with step := step, g := s.law[step], fade := none }) ∧
      (rm.gain.mute = false → b.toNat ≠ 0 → s.perform r number (.fade a b) =
        gained { rm.gain with step := step, fade := some ⟨rm.gain.g, s.law[step], min 60000 b.toNat * 48, 0⟩ })) ∧
    (∀ yes, s.perform r number (.mute yes) = if rm.gain.mute = yes then (s, .ok) else
      gained { rm.gain with
        mute := yes, fade := some ⟨rm.gain.g, if yes then 0 else s.law[rm.gain.step], 480, 0⟩ }) ∧
    (∀ (kinds : BitVec 4) (n : BitVec 16), s.perform r number (.mask kinds n) =
      (s.modRoom r fun rm => { rm with
        mask := if kinds = 0 then ⟨0, 0⟩ else ⟨kinds, max 1 (min 6000 n.toNat)⟩ }, .ok)) ∧
    (∀ t, (s.perform r number (.go t)).1 = (s.goJudge r t).1 ∧
      (s.perform r number (.go t)).2 =
        if t = .goLive ∧ rm.path.state = .prove ∧ (s.goJudge r t).2 = .seqBusy then .wrongState else (s.goJudge r t).2) ∧
    (∀ (a : BitVec 3) (unit : TimerUnit) (n : BitVec 16) (rep : Bool) (target : Nat),
      (3 < a.toNat → s.perform r number (.timerStart a unit n rep target) = (s, .badField) ∧
        s.perform r number (.timerStop a) = (s, .badField)) ∧
      ∀ i : Fin 4, a.toNat = i.val →
        s.perform r number (.timerStart a unit n rep target) = (s.modRoom r fun rm => { rm with
          timers := rm.timers.set i.val ⟨true, unit, max 1 n.toNat, rep, some target,
            max 1 n.toNat * (match unit with | .sample => 1 | .frame => 2000 | .second => 48000), false⟩ i.isLt }, .ok) ∧
        s.perform r number (.timerStop a) = (s.modRoom r fun rm => { rm with
          timers := rm.timers.set i.val { rm.timers[i] with running := false, remaining := 0, expiring := false } i.isLt },
          .ok))) ∧
  (∀ (s : State) (r : Room) (pre post : List Handover) (h : Handover), s.periodOpen = true → s.handovers = pre ++ h :: post → h.room = r →
    (∀ x ∈ pre, x.room ≠ r) →
    let gone : State := { s with handovers := pre ++ post }
    (s.supply = true ∨ s.store ≠ .ready ∨ s.restart ≠ none → exec (.alarmHandover r) s = .next gone) ∧
    (s.supply = false → s.store = .ready → s.restart = none →
      exec (.alarmHandover r) s = .next (h.conds.foldl (fun u x =>
        ((u.room r).list.filter (·.matchesAlarm x)).foldl (fun v c => (v.fire r c (.alarm x)).st) u) gone))) ∧
  (∀ (c : Cue) (a : Chan) (k : LevelKind),
    (c.matchesAlarm (.level a k) = true ↔ c.trigger = .alarm k.kind .any ∨ c.trigger = .alarm k.kind (.ch a)) ∧
    (c.matchesAlarm .rack = true ↔ c.trigger = .alarm .rack .any ∨ c.trigger = .alarm .rack .room))

/-! ### Booth cues (08) -/

/-- The four requests on a draft and a cursor, where they are accepted: CUE_DRAFT_CLEAR empties the draft (R145);
CUE_DRAFT_APPEND adds its entries (R146); CUE_COMMIT makes the draft the list and places the cursor (R147, R148);
CUE_REWIND puts the cursor at base (R155). That the used count takes in lists and drafts alike is the model's reading
(assumption 16, DEDUCED), as are the widths of the numbers in the replies (assumption 9, DEDUCED).

The refusals of CUE_DRAFT_APPEND and CUE_COMMIT with their replies, nothing changed: BAD_FIELD and ORDER with the index of the
entry, STORE_FULL with the draft's length and the free count, and the commit's ORDER with the cue's number (R146, R147). -/
def Obligations.CueSequencesJudged : Prop :=
  (∀ (s : State) (h : Header) (r : Room), s.admits h r →
    exec (.cueDraftClear h []) s = .next ((s.modRoom r fun rm => { rm with draft := [] }).replied h .cueDraftClear .ok
      [.bits 10 (s.modRoom r fun rm => { rm with draft := [] }).cueUsed]) ∧
    (∀ (body : List Payload) (entries : List (List Payload)) (cues : List Cue), body.length ≤ 72 →
      entriesOf body = some entries → entries.map Cue.ofWords = cues.map some →
      (((s.room r).draft.getLast?.map (·.number)).toList ++ cues.map (·.number)).Pairwise (· < ·) →
      (s.room r).draft.length + cues.length ≤ 128 → s.cueUsed + cues.length ≤ 512 →
      exec (.cueDraftAppend h body) s = .next ((s.modRoom r fun rm => { rm with draft := rm.draft ++ cues }).replied h
        .cueDraftAppend .ok [.bits 8 ((s.room r).draft.length + cues.length), .bits 10 (s.cueUsed + cues.length)])) ∧
    (((s.room r).draft.filterMap Cue.frame?).Pairwise (· ≤ ·) →
      let new : RoomRec := { s.room r with list := (s.room r).draft, draft := [] }
      exec (.cueCommit h []) s = .next ((s.modRoom r fun _ => { new with cursor := match new.tc.last with
          | none => baseOf new.list
          | some last =>
            if new.path.state = .off then baseOf new.list else firstAt (fun f => decide (last < f)) new.list }).replied h
        .cueCommit .ok
        [.bits 8 (s.room r).draft.length, .bits 10 (s.cueUsed - (s.room r).list.length)])) ∧
    exec (.cueRewind h []) s = .next ((s.modRoom r fun rm => { rm with cursor := baseOf rm.list }).replied h .cueRewind .ok
      (.bits 8 (baseOf (s.room r).list) :: Fld.opt 24 (s.room r).tc.last))) ∧
  (∀ (s : State) (h : Header) (r : Room), s.admits h r →
    (∀ (body : List Payload) (entries : List (List Payload)), body.length ≤ 72 → entriesOf body = some entries →
      (∀ (pre : List (List Payload)) (e : List Payload) (post : List (List Payload)), entries = pre ++ e :: post →
        Cue.ofWords e = none → (∀ x ∈ pre, Cue.ofWords x ≠ none) →
        exec (.cueDraftAppend h body) s = .next (s.replied h .cueDraftAppend .badField [.bits 5 pre.length])) ∧
      (∀ (pre : List Cue) (c : Cue) (post : List Cue) (n : Nat), entries.map Cue.ofWords = (pre ++ c :: post).map some →
        (((s.room r).draft.getLast?.map (·.number)).toList ++ pre.map (·.number)).Pairwise (· < ·) →
        (((s.room r).draft.getLast?.map (·.number)).toList ++ pre.map (·.number)).getLast? = some n → c.number ≤ n →
        exec (.cueDraftAppend h body) s = .next (s.replied h .cueDraftAppend .order [.bits 5 pre.length])) ∧
      (∀ cues : List Cue, entries.map Cue.ofWords = cues.map some →
        (((s.room r).draft.getLast?.map (·.number)).toList ++ cues.map (·.number)).Pairwise (· < ·) →
        128 < (s.room r).draft.length + cues.length ∨ 512 < s.cueUsed + cues.length →
        exec (.cueDraftAppend h body) s = .next (s.replied h .cueDraftAppend .storeFull
          [.bits 8 (s.room r).draft.length, .bits 10 (512 - s.cueUsed)]))) ∧
    ∀ (pre : List Cue) (c : Cue) (post : List Cue) (f g : Nat), (s.room r).draft = pre ++ c :: post →
      c.frame? = some f → g ∈ pre.filterMap Cue.frame? → f < g → (pre.filterMap Cue.frame?).Pairwise (· ≤ ·) →
      exec (.cueCommit h []) s = .next (s.replied h .cueCommit .order [.bits 14 c.number]))

/-- On a list whose AT frames do not fall, where cues may fire and the room is not in OFF: an advance to T from a cursor before
which no AT cue has a frame above T, and a jump to T from any cursor, leave the cursor at the first AT cue whose frame is above T,
or at the end; then the run fires in list order: of an advance the AT cues from the cursor on whose frame is at most T, of a jump
the AT cues whose frame is T (R151, R152). In OFF and while no cue may fire nothing happens (R154, R172); that no cue fires while the
Table Store initialises or an engine restart runs is the model's reading (assumption 12, DEDUCED).

The cues of a run that are left do not fire once a cue has brought the room into OFF (R163); that a cue which also leads out of
OFF again ends no run is the model's reading of it (assumption 11, DESIGN CHOICE).

`firstAt` is the position of the first AT cue whose frame passes the test, and the length where there is none. A timecode value's
event reaches the Cue Engine with the record already moved (R49); a room takes its value of a feed frame so, and a period without one
moves the record alone, as the statements about frames and timecode say. -/
def Obligations.CursorRuns : Prop :=
  (∀ (s : State) (r : Room) (t : Nat), s.supply = false → s.store = .ready → s.restart = none →
    (s.room r).path.state ≠ .off → ((s.room r).list.filterMap Cue.frame?).Pairwise (· ≤ ·) →
    let rm := s.room r
    let moved : State := s.modRoom r fun rm => { rm with cursor := firstAt (fun f => decide (t < f)) rm.list }
    let atFrame (p : Nat → Bool) (c : Cue) : Bool := match c.frame? with | some f => p f | none => false
    (rm.cursor ≤ rm.list.length → (∀ i < rm.cursor, ∀ c f, rm.list[i]? = some c → c.frame? = some f → f ≤ t) →
      s.advanceTo r t = moved.fireRun r (.timecode false t)
        ((rm.list.drop rm.cursor).filter (atFrame fun f => decide (f ≤ t)))) ∧
    s.jumpTo r t = moved.fireRun r (.timecode true t) (rm.list.filter (atFrame fun f => decide (f = t)))) ∧
  (∀ (s : State) (r : Room) (t : Nat),
    s.supply = true ∨ s.store ≠ .ready ∨ s.restart ≠ none ∨ (s.room r).path.state = .off →
    s.advanceTo r t = s ∧ s.jumpTo r t = s) ∧
  (∀ (s : State) (r : Room) (why : Cause) (c : Cue) (cs : List Cue),
    let u := (s.fire r c why).st
    s.fireRun r why [] = s ∧
    ((u.room r).path.state = .off → s.fireRun r why (c :: cs) = u) ∧
    ((u.room r).path.state ≠ .off → s.fireRun r why (c :: cs) = u.fireRun r why cs)) ∧
  (∀ (p : Nat → Bool) (l : List Cue), firstAt p l ≤ l.length ∧
    (∀ i < firstAt p l, ∀ c f, l[i]? = some c → c.frame? = some f → p f = false) ∧
    (firstAt p l < l.length → ∃ c f, l[firstAt p l]? = some c ∧ c.frame? = some f ∧ p f = true)) ∧
  (∀ (s : State) (r : Room) (t : Nat), (s.room r).tc.state ≠ .absent →
    let tc := (s.room r).tc
    (classify tc.last t = .advance t →
      s.takeTimecode r (some t) = (s.moveTimecode r (tc.on (.advance t)) false).advanceTo r t) ∧
    (classify tc.last t = .jump t →
      s.takeTimecode r (some t) = (s.moveTimecode r (tc.on (.jump t)) true).jumpTo r t) ∧
    (classify tc.last t = .same → s.takeTimecode r (some t) = s.moveTimecode r (tc.on .same) false))

/-- TIMER_START starts or restarts a timer with its count clamped to 1 and answers with remaining (R165, R166); that a count above
65,535 is clamped to it is the model's reading (assumption 13, DEDUCED). TIMER_STOP stops it and keeps its values (R169).

TIMER_EXPIRY: a timer whose count has run out stops, or reloads when it repeats, and its target fires; a target that is not in the
list stops the timer in either mode and is announced as an orphan (R167, R168). -/
def Obligations.TimersRun : Prop :=
  (∀ (s : State) (h : Header) (r : Room) (t : Fin 4) (a b c d e : Payload), s.admits h r → a.toNat = t.val →
    (∀ (unit : TimerUnit) (rep : Bool), TimerUnit.ofCode b.toNat = some unit → boolOfCode d.toNat = some rep →
      1 ≤ e.toNat → e.toNat ≤ 9999 →
      let n := max 1 (min 65535 c.toNat)
      let full := n * (match unit with | .sample => 1 | .frame => 2000 | .second => 48000)
      exec (.timerStart h [a, b, c, d, e]) s = .next ((s.modRoom r fun rm => { rm with
        timers := rm.timers.set t.val ⟨true, unit, n, rep, some e.toNat, full, false⟩ t.isLt }).replied h .timerStart .ok
        [.bits 32 full])) ∧
    exec (.timerStop h [a]) s = .next ((s.modRoom r fun rm => { rm with
      timers := rm.timers.set t.val { rm.timers[t] with running := false, remaining := 0, expiring := false } t.isLt }).replied h
        .timerStop .ok [])) ∧
  (∀ (s : State) (r : Room) (t : Fin 4) (n : Nat), s.periodOpen = true → s.supply = false → s.store = .ready → s.restart = none →
    (s.room r).timers[t].running = true → (s.room r).timers[t].expiring = true → (s.room r).timers[t].target = some n →
    let tm := (s.room r).timers[t]
    let set (x : Timer) : State := s.modRoom r fun rm => { rm with timers := rm.timers.set t.val x t.isLt }
    (∀ c, findCue (s.room r).list n = some c →
      (tm.rep = false →
        exec (.timerExpiry r t) s =
          .next (((set { tm with running := false, remaining := 0, expiring := false }).fire r c (.timer t)).st)) ∧
      (tm.rep = true →
        exec (.timerExpiry r t) s =
          .next (((set { tm with expiring := false, remaining := tm.count * (match tm.unit with
            | .sample => 1 | .frame => 2000 | .second => 48000) }).fire r c (.timer t)).st))) ∧
    (findCue (s.room r).list n = none →
      exec (.timerExpiry r t) s =
        .next ((set { tm with running := false, remaining := 0, expiring := false }).notify r (.timerOrphan t n))))

/-! ### Booth contacts (09) -/

/-- SET_CONTACT_OWNER gives an input or output its owner and answers with the old and the new (R180). SET_CONTACT sets an
output, owned by a room whose guard passes the level or by none, and keeps who set it (R183).

CONTACT_EDGE: the sample that brings a change run to 960 flips the stable level, clears the run, counts the edge and announces
it; no other input changes. The edge of an input that no room owns reaches no cue list; that of an owned input is announced for
the owner, and fires the owner's CONTACT cues of that input and edge in list order (R157, R177, R178), unless no cue may fire
(R172, R175); what stops the cues is the model's reading (assumption 12, DEDUCED). That the row takes the sample ahead of SAMPLE_PERIOD, and opens the period where none is
open, is the model's choice (assumption 3, DESIGN CHOICE).

A SAMPLE_PERIOD that closes its period samples every line that CONTACT_EDGE has not: a line at the stable level clears the change run, one
that differs adds one to it or completes it, and the first samples after a full reset give the stable levels and no edge (R176, R177). A run
that it completes is announced and handed to the owner's cues as that of CONTACT_EDGE is (R157, R177, R178), and the sixteen inputs are taken
in ascending order (the model's choice, assumption 5).

The cue action CONTACT sets an output that the cue's own room owns and fails with NOT_OWNER on any other, changing nothing
(R184). -/
def Obligations.ContactsAct : Prop :=
  (∀ (s : State) (h : Header) (a b c : Payload), s.listening → s.operational → namesNone h →
    (∀ new : Option Room, h.level.toNat ≤ 1 → belowOrNone 12 c.toNat = some new →
      (∀ i : Fin 16, a.toNat = 0 → b.toNat = i.val →
        exec (.setContactOwner h [a, b, c]) s = .next ((s.modInput i fun x => { x with owner := new }).replied h
          .setContactOwner .ok
          (Fld.opt 4 (s.inputs[i].owner.map (·.val)) ++ Fld.opt 4 (new.map (·.val))))) ∧
      (∀ o : Fin 24, a.toNat = 1 → b.toNat = o.val →
        exec (.setContactOwner h [a, b, c]) s = .next ((s.modOutput o fun x => { x with owner := new }).replied h
          .setContactOwner .ok
          (Fld.opt 4 (s.outputs[o].owner.map (·.val)) ++ Fld.opt 4 (new.map (·.val)))))) ∧
    ∀ (o : Fin 24) (on : Bool), a.toNat = o.val → boolOfCode b.toNat = some on → h.level.toNat ≤ 2 →
      (∀ w, s.outputs[o].owner = some w → h.level.toNat ≤ (s.room w).guard.val) →
      exec (.setContact h [a, b]) s = .next ((s.modOutput o fun x => { x with
        on := on, lastSet := .request h.originator }).replied h .setContact .ok (Fld.opt 4 (s.outputs[o].owner.map (·.val)) ++ [.bool on]))) ∧
  (∀ (s : State) (i : Fin 16), s.periodOpen = true → s.inputs[i].run = 959 → s.inputs[i].sampled = false →
    s.inputsFresh = false →
    let c := s.inputs[i]
    let e : Edge := if c.stable then .fall else .rise
    let after : ContactIn := { c with stable := !c.stable, run := 0, edges := c.edges + 1, line := !c.stable }
    (∃ t, exec (.contactEdge i) s = .next t ∧ t.inputs = s.inputs.set i.val { after with sampled := true } i.isLt) ∧
    (c.owner = none →
      exec (.contactEdge i) s = .next ((s.modInput i fun _ => { after with sampled := true }).notifyPart
        (.contactIn i e none (c.edges + 1)))) ∧
    ∀ q : Room, c.owner = some q →
      let told := (s.modInput i fun _ => after).notify q (.contactIn i e (some q) (c.edges + 1))
      (s.supply = false → s.store = .ready → s.restart = none →
        exec (.contactEdge i) s = .next ((((s.room q).list.filter fun x => decide (x.trigger = .contact i e)).foldl
          (fun u x => (u.fire q x (.contact i e)).st) told).modInput i fun x => { x with sampled := true })) ∧
      (s.supply = true ∨ s.store ≠ .ready ∨ s.restart ≠ none →
        exec (.contactEdge i) s = .next (told.modInput i fun x => { x with sampled := true }))) ∧
  (∀ (s : State) (i : Fin 16), s.periodOpen = false → s.openPeriod.edgeDue i = true →
    exec (.contactEdge i) s = exec (.contactEdge i) s.openPeriod) ∧
  (∀ (s : State) (lines : BitVec 16) (order : PeriodOrder), order.closes = true →
    ∃ t, exec (.samplePeriod lines order) s = .next t ∧ t.inputsFresh = false ∧ ∀ i : Fin 16,
      let c := s.inputs[i]
      let level := lines.getLsbD i.val
      t.inputs[i] = if c.sampled then { c with sampled := false }
        else if s.inputsFresh then { c with stable := level, run := 0, line := level }
        else if level = c.stable then { c with run := 0, line := level }
        else if c.run + 1 < 960 then { c with run := c.run + 1, line := level }
        else { c with stable := level, run := 0, edges := c.edges + 1, line := level }) ∧
  (∀ (s : State) (lines : BitVec 16),
    let sample (u : State) (i : Fin 16) : State :=
      let c := u.inputs[i]
      let level := lines.getLsbD i.val
      let e : Edge := if level then .rise else .fall
      let flipped : State :=
        u.modInput i fun _ => { c with stable := level, run := 0, edges := c.edges + 1, line := level }
      let fires := u.supply = false ∧ u.store = .ready ∧ u.restart = none
      if c.sampled then u.modInput i fun _ => { c with sampled := false }
      else if u.inputsFresh then u.modInput i fun _ => { c with stable := level, run := 0, line := level }
      else if level = c.stable then u.modInput i fun _ => { c with run := 0, line := level }
      else if c.run + 1 < 960 then u.modInput i fun _ => { c with run := c.run + 1, line := level }
      else match c.owner with
        | none => flipped.notifyPart (.contactIn i e none (c.edges + 1))
        | some q =>
          let told := flipped.notify q (.contactIn i e (some q) (c.edges + 1))
          if fires then ((u.room q).list.filter fun x => decide (x.trigger = .contact i e)).foldl
            (fun v x => (v.fire q x (.contact i e)).st) told
          else told
    s.sampleLines lines = { [0, 1, 2, 3, 4, 5, 6, 7, 8, 9, 10, 11, 12, 13, 14, 15].foldl sample s with inputsFresh := false }) ∧
  (∀ (s : State) (r : Room) (number : Nat) (o : Fin 24) (on : Bool),
    (s.outputs[o].owner = some r →
      s.perform r number (.contact o on) = (s.modOutput o fun x => { x with on := on, lastSet := .cue r number }, .ok)) ∧
    (s.outputs[o].owner ≠ some r → s.perform r number (.contact o on) = (s, .notOwner)))

/-! ### The sample period and the rack trunk (R6, R42, R53, R117) -/

/-- A closing SAMPLE_PERIOD leaves one more period of its block behind it, or none where the block end has been taken in it, and its rack
frame carries 0 on every lane of a room that ends it in OFF, LISTEN, READY or HALTED, or in PARKED with p at 0, save the pilot of a rack
word that the period has judged. Every lane word carries its sample, is valid, has its check bit set and bits 31:26 at 0 (R6, R18, R42,
R213). The tables and the budget stay, and the lanes as the period finds them when it opens (assumption 1), but for the marks that a block
end clears and the concealment that rooms count which still have to read the frame.

The chains of the rooms in `order.ahead` come ahead of what follows: they run once, as the period closes, with the state they use as the
command that put them ahead found it. A command that does not close the period has the rooms it names read the words that they have put
off, and the period goes on (R1, R41, R53, R58, R81, R101). The closing command takes the hand-overs that wait, oldest first; the words that
rooms still have to read; the events that are due: room by room settling, path ramp, fade, bottom and end of a dip and the four timers,
then the ends of the initialisation and of a restart, then the contact lines; then the chains run, of a room that is not put ahead with
the state in force then, and their frame leaves (R15, R25, R42, R53, R54, R61, R67, R74, R156, R167, R176, R206, R208). The order of the
events is the model's choice (assumption 5, DESIGN CHOICE). In the last period of a block whose command puts the block end first, the
block takes the meters of the period's own chains, the block end comes next, and the events and the chains follow, which add nothing to
the meters; nor do chains after a METER_BLOCK_END of the period (R52, R56, R117 to R120; assumption 18, DESIGN CHOICE).

The rack lane of a channel carries the chain's output in LIVE and PARKED, with p as the frame leaves, and in PROVE the pilot on the channel
under test from the first period of its attempt, +838,861 and −838,861 in runs of 24 periods, and 0 on the others (R6, R18, R42, R57). A
period whose rack word has been judged for an attempt carries that attempt's pilot, also where the word ended the attempt or the proof,
unless the room runs its chains or is HALTED (R18; assumption 4, DEDUCED). -/
def Obligations.SamplePeriodAndLanes : Prop :=
  (∀ (s : State) (rooms : List Room), s.putAhead rooms = { s with
    rooms := Vector.ofFn fun r => if r ∈ rooms then (s.room r).putAhead else s.room r }) ∧
  (∀ (s : State) (lines : BitVec 16) (order : PeriodOrder), order.closes = false →
    exec (.samplePeriod lines order) s = .next (order.rooms.foldl State.readWords (s.openPeriod.putAhead order.ahead))) ∧
  (∀ (s : State) (lines : BitVec 16) (order : PeriodOrder), order.closes = true →
    let o := s.openPeriod
    let first := order.blockFirst = true ∧ o.blockPos = 479
    ∃ t, exec (.samplePeriod lines order) s = .next t ∧ t.periodOpen = false ∧ t.blockEnded = false ∧
      t.blockPos = (if first ∨ o.blockEnded = true then 0 else o.blockPos + 1) ∧
      t.blockNumber = (if first then o.blockNumber + 1 else o.blockNumber) ∧
      (t.blockEndDue = true ↔ 480 ≤ t.blockPos) ∧ t.inputsFresh = false ∧
      (∀ l : Lane, t.lanes[l] = { o.lanes[l] with
        mark := if first then false else o.lanes[l].mark
        usedErr := t.lanes[l].usedErr, concealed := t.lanes[l].concealed }) ∧
      (o.waiting = [] → ∀ l : Lane,
        t.lanes[l].usedErr = o.lanes[l].usedErr ∧ t.lanes[l].concealed = o.lanes[l].concealed) ∧
      t.checkTotal = o.checkTotal ∧ t.law = s.law ∧ t.profiles = s.profiles ∧
      t.committedTotal = s.committedTotal ∧ t.pending = s.pending ∧ (∀ r : Room, (t.room r).ahead = none) ∧
      ∀ (r : Room) (k : Chan) (hj : 16 * r.val + k.val < 192),
        ((t.room r).path.state ∈ [RoomState.off, .listen, .ready] ∧ (t.room r).path.pilotSent = none) ∨
          (t.room r).path.state = .halted ∨ ((t.room r).path.state = .parked ∧ (t.room r).path.p = 0) →
        t.rackFrame[16 * r.val + k.val] = 0x3000000#32) ∧
  (∀ (s : State) (lines : BitVec 16) (order : PeriodOrder), order.closes = true →
    let early := s.openPeriod.putAhead order.ahead
    let s0 := early.after (early.handovers.map fun x => .alarmHandover x.room)
    let rows (r : Room) : List Instr := [.settlingEnd r, .pathRampEnd r, .fadeEnd r, .dipBottom r, .dipAscentEnd r,
      .timerExpiry r 0, .timerExpiry r 1, .timerExpiry r 2, .timerExpiry r 3]
    let events (x : State) : State :=
      (x.takeWaiting.after ((visit order.rooms).flatMap rows ++ [.tableStoreInitEnd, .restartEnd])).sampleLines lines
    let ran (x : State) (r : Room) : RoomRec := (x.room r).runPeriod x.profiles[(x.room r).entry.profile] (!x.blockEnded)
    (¬(order.blockFirst = true ∧ s0.blockPos = 479) →
      let u := events s0
      ∃ t, exec (.samplePeriod lines order) s = .next t ∧
        t = { u with
          rooms := t.rooms, rackFrame := u.runPeriod.rackFrame, periodOpen := false, blockEnded := false
          blockPos := t.blockPos, blockEndDue := t.blockEndDue } ∧
        ∀ r : Room, t.room r = ran u r) ∧
    (order.blockFirst = true → s0.blockPos = 479 →
      let u := events { (s0.meteredBy (events s0)).blockEnd order.rooms with blockEnded := true }
      ∃ t, exec (.samplePeriod lines order) s = .next t ∧
        t = { u with
          rooms := t.rooms, rackFrame := u.runPeriod.rackFrame, periodOpen := false, blockEnded := false
          blockPos := 0, blockEndDue := false } ∧
        ∀ r : Room, t.room r = ran u r)) ∧
  (∀ s v : State, s.meteredBy v = { s with
    rooms := Vector.ofFn fun r => { s.room r with
      meters := ({ v.room r with meters := (s.room r).meters }.runPeriod v.profiles[(v.room r).entry.profile]
        (!v.blockEnded)).meters } }) ∧
  (∀ (s : State) (r : Room) (k : Chan) (hj : 16 * r.val + k.val < 192),
    ((s.room r).path.state = .live ∨ (s.room r).path.state = .parked →
      ((s.room r).ahead = none → s.runPeriod.rackFrame[16 * r.val + k.val] =
        laneWordOut ((s.room r).chainOut s.profiles[(s.room r).entry.profile] k).w) ∧
      ∀ e : Early, (s.room r).ahead = some e → s.runPeriod.rackFrame[16 * r.val + k.val] =
        laneWordOut ((s.room r).asChained.chainOut s.profiles[(s.room r).entry.profile] k).w) ∧
    (∀ e : Early, (s.room r).ahead = some e →
      let rm := s.room r
      let a := rm.bankInService = .a
      rm.asChained = { rm with
        bankA := if a then e.bank else rm.bankA, bankB := if a then rm.bankB else e.bank
        histA := if a then e.hist else rm.histA, histB := if a then rm.histB else e.hist
        decode := e.decode, gain := { rm.gain with g := e.g }, dip := { rm.dip with d := e.d } }) ∧
    (∀ (c : Chan) (n m : Nat),
      ((s.room r).path.state ∈ [RoomState.off, .listen, .ready, .prove] ∧ (s.room r).path.pilotSent = some (c, m + 1)) ∨
        ((s.room r).path.state = .prove ∧ (s.room r).path.pilotSent = none ∧ (s.room r).path.proofPos = some ⟨c, n⟩ ∧
          (s.room r).path.seqCount = m + 1) →
      s.runPeriod.rackFrame[16 * r.val + k.val] =
        laneWordOut (if c = k then (if m % 48 < 24 then 838861 else -838861) else 0))) ∧
  ∀ x : Int, -8388608 ≤ x → x ≤ 8388607 →
    let w := laneWordOut x
    (w.extractLsb' 0 24).toInt = x ∧ w.toNat.testBit 24 = true ∧ w.toNat < 2 ^ 26 ∧
      (List.range 26).countP (fun i => w.toNat.testBit i) % 2 = 0

/-! ### Resets (R2, R3, R30, R206 to R210) -/

/-- FULL_RESET: every record is at its full-reset value whatever it was, and the supply state is the line's (R30, R209, R210).
The queue of waiting commands is the outside's and stays (assumption 6). State.reset is the whole of it; the values in it that no
rule gives, such as the level of a contact line and the outbound frames before their first, and the empty queue of commands after
a reset of the model, are the model's choice (assumption 10, DESIGN CHOICE).

The values right after a full reset: every room OFF with its defaults, the fader law, an empty budget, empty lists and queues,
the Table Store initialising (R2, R3, R33, R59, R60, R65, R69, R75, R87, R109, R121, R206). -/
def Obligations.FullResetActs : Prop :=
  (∀ (s : State) (line : Bool),
    exec (.fullReset line) s = .next { State.reset with supply := line, supplyDue := line, pending := s.pending }) ∧
  ((∀ r : Room, (State.reset.room r).path.state = .off ∧ (State.reset.room r).path.phase = .none ∧
    (State.reset.room r).path.p = 0 ∧ (State.reset.room r).path.proven = false ∧
    (State.reset.room r).path.fitted = 0xFFFF#16 ∧ (State.reset.room r).path.policy = .testAll ∧
    (State.reset.room r).guard = 2 ∧ (State.reset.room r).gain = ⟨70, false, 65536, none⟩ ∧
    (State.reset.room r).dip.stage = .idle ∧ (State.reset.room r).dip.d = 65536 ∧
    (State.reset.room r).activeFormat = 0 ∧ (State.reset.room r).activeSource = .main ∧
    (State.reset.room r).bankInService = .a ∧ (State.reset.room r).tc.state = .absent ∧
    (State.reset.room r).tc.last = none ∧ (State.reset.room r).commitment = 0 ∧
    (State.reset.room r).list = [] ∧ (State.reset.room r).draft = [] ∧ (State.reset.room r).cursor = 0) ∧
  State.reset.law[(0 : Fin 101)] = 0 ∧ State.reset.law[(35 : Fin 101)] = 32768 ∧ State.reset.law[(50 : Fin 101)] = 46811 ∧
  State.reset.law[(70 : Fin 101)] = 65536 ∧ State.reset.law[(100 : Fin 101)] = 93622 ∧
  State.reset.committedTotal = 0 ∧ State.reset.alarms = [] ∧ State.reset.mgmt.queue = [] ∧ State.reset.mgmt.notices = [] ∧
  State.reset.mgmt.holder = none ∧ State.reset.store = .initialising 0 ∧ State.reset.restart = none ∧
  State.reset.blockNumber = 0 ∧ State.reset.pending = [])

/-- ENGINE_RESTART at level 0: its reply is issued, and every block takes the restart values of its rules while the tables, the
counters, the queues and the block in progress are kept (R2, R30, R33, R43, R60, R68, R139, R175, R182, R207). That the programme
channels stand at 0 until the next frame is the model's reading (assumption 8, DEDUCED). -/
def Obligations.EngineRestartBegins : Prop :=
  ∀ (s : State) (h : Header), s.listening → s.operational → namesNone h → h.level.toNat = 0 →
    ∃ u : State, exec (.engineRestart h []) s = .next (u.replied h .engineRestart .ok []) ∧
      u = { s with
        restart := some 0, alarms := [], handovers := [], lanes := u.lanes, outputs := u.outputs, rooms := u.rooms } ∧
      (∀ l : Lane, u.lanes[l] = { s.lanes[l] with hold := 0, mark := false }) ∧
      (∀ o : Fin 24, u.outputs[o] = ⟨s.outputs[o].owner, false, .none⟩) ∧
      ∀ r : Room,
        u.room r = { s.room r with
          path := { Path.reset with
            fitted := (s.room r).path.fitted, proofMin := (s.room r).path.proofMin, proofMax := (s.room r).path.proofMax,
            policy := (s.room r).path.policy }
          gain := ⟨(s.room r).gain.step, false, s.law[(s.room r).gain.step], none⟩
          dip := .reset
          tc := match (s.room r).activeMap.tc with
            | none => ⟨.absent, none, 0, 0, false⟩
            | some _ => ⟨.lost, none, 0, 2400, false⟩
          histA := .zero, histB := .zero, decode := .zero, prog := (u.room r).prog, demand := 0, ahead := none
          conds := Vector.replicate 16 .quiet, rackCond := .quiet, mask := .none
          timers := (u.room r).timers, cursor := baseOf (s.room r).list, meters := (u.room r).meters } ∧
        (∀ i : Fin 4, (u.room r).timers[i] =
          { (s.room r).timers[i] with running := false, remaining := 0, expiring := false }) ∧
        ∀ k : Chan, (u.room r).meters[k] = { (s.room r).meters[k] with peak := 0, clips := 0 } ∧ (u.room r).prog[k.val] = 0

/-! ### Invariants that every step keeps -/

/-- Every room's path keeps its invariant: phase within state, proven only with every fitted channel PASSED and always on the
air, p in its range and 0 outside LIVE (R5, R6, R9, R12, R25, R26). -/
def Obligations.PathsKept : Prop :=
∀ s t : State, s.pathsOk → step s = .next t → t.pathsOk

/-- The Management Unit keeps its invariant: at most four requests and 32 notices, none waiting beside an empty holder (R188,
R190, R193, R203, R205). That an assembly in IDLE has its other fields at 0 is the model's own choice (assumption 10, DESIGN CHOICE). -/
def Obligations.ManagementKept : Prop :=
∀ s t : State, s.mgmt.ok → step s = .next t → t.mgmt.ok

/-- The budget keeps its invariant: the committed total is the sum of the twelve commitments, each what the room's tables
require, and never above 1,280 (R90, R109, R110, R111). Every written slot keeps the tag of its coefficients, so that every
ACTIVE slot passes the stability test (R89, R108). -/
def Obligations.BudgetKept : Prop :=
∀ s t : State, step s = .next t → (s.budgetOk → t.budgetOk) ∧ (s.tagsOk → t.tagsOk)

/-- The alarm list keeps its invariant: at most 48 entries, one for a condition, every entry in agreement with its condition and
every RAISED condition listed or marked unlisted; and no entry is of a room in OFF (R130 to R133, R138). -/
def Obligations.AlarmsKept : Prop :=
∀ s t : State, step s = .next t → (s.alarmsOk → t.alarmsOk) ∧ (s.offUnlisted → t.offUnlisted)

/-- The gains, fades and dips keep their invariant, and only a LIVE room has a dip (R59 to R61, R64, R65, R68). The hold values and
the programme channels stay samples, every envelope 0 to 8,388,608 and every dominance index −16 to 16 (R34, R35, R83, R84). -/
def Obligations.FactorsKept : Prop :=
∀ s t : State, step s = .next t → (s.factorsOk → t.factorsOk) ∧ (s.signalsOk → t.signalsOk)

/-- The cue store keeps its invariant: at most 512 entries, 128 a list, numbers ascending, AT frames not falling, and every cursor
at an AT cue or at the end (R142, R147, R150). No AT cue before a cursor has a frame above the last frame, and the cursor stands at
base while the last frame is NONE, in OFF and while the supply warning is asserted (R150, R154, R171). -/
def Obligations.CuesKept : Prop :=
∀ s t : State, step s = .next t → (s.cuesOk → t.cuesOk) ∧ (s.cursorsOk → t.cursorsOk)

/-- The contact inputs' change runs stay below 960 and a meter block has at most 480 periods (R117, R177). A timer has remaining above
0 while it runs, 0 while it is stopped, and never more than its full count (R165, R167). -/
def Obligations.CountsKept : Prop :=
∀ s t : State, step s = .next t → (s.countsOk → t.countsOk) ∧ (s.timersOk → t.timersOk)

/-- After every step from a state that meets the invariants of paths and factors, each room's g lies within 0 to 131,071, its d
and p within 0 to 65,536, and a fade in flight stands between its two ends (R64). -/
def Obligations.GainDipAndPathInRange : Prop :=
∀ (s t : State), s.pathsOk → s.factorsOk → step s = .next t → ∀ r : Room,
    (t.room r).gain.g ≤ 131071 ∧ (t.room r).dip.d ≤ 65536 ∧ (t.room r).path.p ≤ 65536 ∧
    (∀ f, (t.room r).gain.fade = some f → min f.g0 f.g1 ≤ (t.room r).gain.g ∧ (t.room r).gain.g ≤ max f.g0 f.g1) ∧
    ∀ q, (t.room r).path.ramp = some q → min q.p0 q.p1 ≤ (t.room r).path.p ∧ (t.room r).path.p ≤ max q.p0 q.p1

/-- The state right after a full reset meets every invariant. -/
def Obligations.ResetMeetsInvariants : Prop :=
State.reset.pathsOk ∧ State.reset.mgmt.ok ∧ State.reset.budgetOk ∧ State.reset.alarmsOk ∧ State.reset.factorsOk ∧
  State.reset.cuesOk ∧ State.reset.countsOk ∧ State.reset.tagsOk ∧ State.reset.offUnlisted ∧ State.reset.signalsOk ∧
  State.reset.cursorsOk ∧ State.reset.timersOk
end

