-- ==== Sys2Proof/Laws/State.lean ====
section
/-! SUPPORT. What each update of the part leaves alone: one lemma for each field and each update, and the room and the
notice queue after an update. No later proof unfolds a record update. -/

namespace Sys2Proof.Machine

/-! ### modRoom -/

section
variable (s : State) (r : Room) (f : RoomRec → RoomRec)

@[simp] theorem State.modRoom_lanes : (s.modRoom r f).lanes = s.lanes := rfl
@[simp] theorem State.modRoom_checkTotal : (s.modRoom r f).checkTotal = s.checkTotal := rfl
@[simp] theorem State.modRoom_law : (s.modRoom r f).law = s.law := rfl
@[simp] theorem State.modRoom_profiles : (s.modRoom r f).profiles = s.profiles := rfl
@[simp] theorem State.modRoom_committedTotal : (s.modRoom r f).committedTotal = s.committedTotal := rfl
@[simp] theorem State.modRoom_blockNumber : (s.modRoom r f).blockNumber = s.blockNumber := rfl
@[simp] theorem State.modRoom_blockPos : (s.modRoom r f).blockPos = s.blockPos := rfl
@[simp] theorem State.modRoom_blockEndDue : (s.modRoom r f).blockEndDue = s.blockEndDue := rfl
@[simp] theorem State.modRoom_blockEnded : (s.modRoom r f).blockEnded = s.blockEnded := rfl
@[simp] theorem State.modRoom_alarms : (s.modRoom r f).alarms = s.alarms := rfl
@[simp] theorem State.modRoom_handovers : (s.modRoom r f).handovers = s.handovers := rfl
@[simp] theorem State.modRoom_inputs : (s.modRoom r f).inputs = s.inputs := rfl
@[simp] theorem State.modRoom_inputsFresh : (s.modRoom r f).inputsFresh = s.inputsFresh := rfl
@[simp] theorem State.modRoom_outputs : (s.modRoom r f).outputs = s.outputs := rfl
@[simp] theorem State.modRoom_mgmt : (s.modRoom r f).mgmt = s.mgmt := rfl
@[simp] theorem State.modRoom_supply : (s.modRoom r f).supply = s.supply := rfl
@[simp] theorem State.modRoom_supplyDue : (s.modRoom r f).supplyDue = s.supplyDue := rfl
@[simp] theorem State.modRoom_store : (s.modRoom r f).store = s.store := rfl
@[simp] theorem State.modRoom_restart : (s.modRoom r f).restart = s.restart := rfl
@[simp] theorem State.modRoom_periodOpen : (s.modRoom r f).periodOpen = s.periodOpen := rfl
@[simp] theorem State.modRoom_waiting : (s.modRoom r f).waiting = s.waiting := rfl
@[simp] theorem State.modRoom_words : (s.modRoom r f).words = s.words := rfl
@[simp] theorem State.modRoom_outFresh : (s.modRoom r f).outFresh = s.outFresh := rfl
@[simp] theorem State.modRoom_rackFrame : (s.modRoom r f).rackFrame = s.rackFrame := rfl
@[simp] theorem State.modRoom_outFrame : (s.modRoom r f).outFrame = s.outFrame := rfl
@[simp] theorem State.modRoom_pending : (s.modRoom r f).pending = s.pending := rfl

end

/-! ### mapRooms -/

section
variable (s : State) (f : RoomRec → RoomRec)

@[simp] theorem State.mapRooms_lanes : (s.mapRooms f).lanes = s.lanes := rfl
@[simp] theorem State.mapRooms_checkTotal : (s.mapRooms f).checkTotal = s.checkTotal := rfl
@[simp] theorem State.mapRooms_law : (s.mapRooms f).law = s.law := rfl
@[simp] theorem State.mapRooms_profiles : (s.mapRooms f).profiles = s.profiles := rfl
@[simp] theorem State.mapRooms_committedTotal : (s.mapRooms f).committedTotal = s.committedTotal := rfl
@[simp] theorem State.mapRooms_blockNumber : (s.mapRooms f).blockNumber = s.blockNumber := rfl
@[simp] theorem State.mapRooms_blockPos : (s.mapRooms f).blockPos = s.blockPos := rfl
@[simp] theorem State.mapRooms_blockEndDue : (s.mapRooms f).blockEndDue = s.blockEndDue := rfl
@[simp] theorem State.mapRooms_blockEnded : (s.mapRooms f).blockEnded = s.blockEnded := rfl
@[simp] theorem State.mapRooms_alarms : (s.mapRooms f).alarms = s.alarms := rfl
@[simp] theorem State.mapRooms_handovers : (s.mapRooms f).handovers = s.handovers := rfl
@[simp] theorem State.mapRooms_inputs : (s.mapRooms f).inputs = s.inputs := rfl
@[simp] theorem State.mapRooms_inputsFresh : (s.mapRooms f).inputsFresh = s.inputsFresh := rfl
@[simp] theorem State.mapRooms_outputs : (s.mapRooms f).outputs = s.outputs := rfl
@[simp] theorem State.mapRooms_mgmt : (s.mapRooms f).mgmt = s.mgmt := rfl
@[simp] theorem State.mapRooms_supply : (s.mapRooms f).supply = s.supply := rfl
@[simp] theorem State.mapRooms_supplyDue : (s.mapRooms f).supplyDue = s.supplyDue := rfl
@[simp] theorem State.mapRooms_store : (s.mapRooms f).store = s.store := rfl
@[simp] theorem State.mapRooms_restart : (s.mapRooms f).restart = s.restart := rfl
@[simp] theorem State.mapRooms_periodOpen : (s.mapRooms f).periodOpen = s.periodOpen := rfl
@[simp] theorem State.mapRooms_waiting : (s.mapRooms f).waiting = s.waiting := rfl
@[simp] theorem State.mapRooms_words : (s.mapRooms f).words = s.words := rfl
@[simp] theorem State.mapRooms_outFresh : (s.mapRooms f).outFresh = s.outFresh := rfl
@[simp] theorem State.mapRooms_rackFrame : (s.mapRooms f).rackFrame = s.rackFrame := rfl
@[simp] theorem State.mapRooms_outFrame : (s.mapRooms f).outFrame = s.outFrame := rfl
@[simp] theorem State.mapRooms_pending : (s.mapRooms f).pending = s.pending := rfl

end

/-! ### notify -/

section
variable (s : State) (r : Room) (b : NoticeBody)

@[simp] theorem State.notify_rooms : (s.notify r b).rooms = s.rooms := rfl
@[simp] theorem State.notify_lanes : (s.notify r b).lanes = s.lanes := rfl
@[simp] theorem State.notify_checkTotal : (s.notify r b).checkTotal = s.checkTotal := rfl
@[simp] theorem State.notify_law : (s.notify r b).law = s.law := rfl
@[simp] theorem State.notify_profiles : (s.notify r b).profiles = s.profiles := rfl
@[simp] theorem State.notify_committedTotal : (s.notify r b).committedTotal = s.committedTotal := rfl
@[simp] theorem State.notify_blockNumber : (s.notify r b).blockNumber = s.blockNumber := rfl
@[simp] theorem State.notify_blockPos : (s.notify r b).blockPos = s.blockPos := rfl
@[simp] theorem State.notify_blockEndDue : (s.notify r b).blockEndDue = s.blockEndDue := rfl
@[simp] theorem State.notify_blockEnded : (s.notify r b).blockEnded = s.blockEnded := rfl
@[simp] theorem State.notify_alarms : (s.notify r b).alarms = s.alarms := rfl
@[simp] theorem State.notify_handovers : (s.notify r b).handovers = s.handovers := rfl
@[simp] theorem State.notify_inputs : (s.notify r b).inputs = s.inputs := rfl
@[simp] theorem State.notify_inputsFresh : (s.notify r b).inputsFresh = s.inputsFresh := rfl
@[simp] theorem State.notify_outputs : (s.notify r b).outputs = s.outputs := rfl
@[simp] theorem State.notify_supply : (s.notify r b).supply = s.supply := rfl
@[simp] theorem State.notify_supplyDue : (s.notify r b).supplyDue = s.supplyDue := rfl
@[simp] theorem State.notify_store : (s.notify r b).store = s.store := rfl
@[simp] theorem State.notify_restart : (s.notify r b).restart = s.restart := rfl
@[simp] theorem State.notify_periodOpen : (s.notify r b).periodOpen = s.periodOpen := rfl
@[simp] theorem State.notify_waiting : (s.notify r b).waiting = s.waiting := rfl
@[simp] theorem State.notify_words : (s.notify r b).words = s.words := rfl
@[simp] theorem State.notify_outFresh : (s.notify r b).outFresh = s.outFresh := rfl
@[simp] theorem State.notify_rackFrame : (s.notify r b).rackFrame = s.rackFrame := rfl
@[simp] theorem State.notify_outFrame : (s.notify r b).outFrame = s.outFrame := rfl
@[simp] theorem State.notify_pending : (s.notify r b).pending = s.pending := rfl
@[simp] theorem State.notify_room (x : Room) : (s.notify r b).room x = s.room x := rfl

end

/-! ### notifyPart -/

section
variable (s : State) (b : NoticeBody)

@[simp] theorem State.notifyPart_rooms : (s.notifyPart b).rooms = s.rooms := rfl
@[simp] theorem State.notifyPart_lanes : (s.notifyPart b).lanes = s.lanes := rfl
@[simp] theorem State.notifyPart_checkTotal : (s.notifyPart b).checkTotal = s.checkTotal := rfl
@[simp] theorem State.notifyPart_law : (s.notifyPart b).law = s.law := rfl
@[simp] theorem State.notifyPart_profiles : (s.notifyPart b).profiles = s.profiles := rfl
@[simp] theorem State.notifyPart_committedTotal : (s.notifyPart b).committedTotal = s.committedTotal := rfl
@[simp] theorem State.notifyPart_blockNumber : (s.notifyPart b).blockNumber = s.blockNumber := rfl
@[simp] theorem State.notifyPart_blockPos : (s.notifyPart b).blockPos = s.blockPos := rfl
@[simp] theorem State.notifyPart_blockEndDue : (s.notifyPart b).blockEndDue = s.blockEndDue := rfl
@[simp] theorem State.notifyPart_blockEnded : (s.notifyPart b).blockEnded = s.blockEnded := rfl
@[simp] theorem State.notifyPart_alarms : (s.notifyPart b).alarms = s.alarms := rfl
@[simp] theorem State.notifyPart_handovers : (s.notifyPart b).handovers = s.handovers := rfl
@[simp] theorem State.notifyPart_inputs : (s.notifyPart b).inputs = s.inputs := rfl
@[simp] theorem State.notifyPart_inputsFresh : (s.notifyPart b).inputsFresh = s.inputsFresh := rfl
@[simp] theorem State.notifyPart_outputs : (s.notifyPart b).outputs = s.outputs := rfl
@[simp] theorem State.notifyPart_supply : (s.notifyPart b).supply = s.supply := rfl
@[simp] theorem State.notifyPart_supplyDue : (s.notifyPart b).supplyDue = s.supplyDue := rfl
@[simp] theorem State.notifyPart_store : (s.notifyPart b).store = s.store := rfl
@[simp] theorem State.notifyPart_restart : (s.notifyPart b).restart = s.restart := rfl
@[simp] theorem State.notifyPart_periodOpen : (s.notifyPart b).periodOpen = s.periodOpen := rfl
@[simp] theorem State.notifyPart_waiting : (s.notifyPart b).waiting = s.waiting := rfl
@[simp] theorem State.notifyPart_words : (s.notifyPart b).words = s.words := rfl
@[simp] theorem State.notifyPart_outFresh : (s.notifyPart b).outFresh = s.outFresh := rfl
@[simp] theorem State.notifyPart_rackFrame : (s.notifyPart b).rackFrame = s.rackFrame := rfl
@[simp] theorem State.notifyPart_outFrame : (s.notifyPart b).outFrame = s.outFrame := rfl
@[simp] theorem State.notifyPart_pending : (s.notifyPart b).pending = s.pending := rfl
@[simp] theorem State.notifyPart_room (x : Room) : (s.notifyPart b).room x = s.room x := rfl

end

/-! ### modInput -/

section
variable (s : State) (i : Fin 16) (f : ContactIn → ContactIn)

@[simp] theorem State.modInput_rooms : (s.modInput i f).rooms = s.rooms := rfl
@[simp] theorem State.modInput_lanes : (s.modInput i f).lanes = s.lanes := rfl
@[simp] theorem State.modInput_checkTotal : (s.modInput i f).checkTotal = s.checkTotal := rfl
@[simp] theorem State.modInput_law : (s.modInput i f).law = s.law := rfl
@[simp] theorem State.modInput_profiles : (s.modInput i f).profiles = s.profiles := rfl
@[simp] theorem State.modInput_committedTotal : (s.modInput i f).committedTotal = s.committedTotal := rfl
@[simp] theorem State.modInput_blockNumber : (s.modInput i f).blockNumber = s.blockNumber := rfl
@[simp] theorem State.modInput_blockPos : (s.modInput i f).blockPos = s.blockPos := rfl
@[simp] theorem State.modInput_blockEndDue : (s.modInput i f).blockEndDue = s.blockEndDue := rfl
@[simp] theorem State.modInput_blockEnded : (s.modInput i f).blockEnded = s.blockEnded := rfl
@[simp] theorem State.modInput_alarms : (s.modInput i f).alarms = s.alarms := rfl
@[simp] theorem State.modInput_handovers : (s.modInput i f).handovers = s.handovers := rfl
@[simp] theorem State.modInput_inputsFresh : (s.modInput i f).inputsFresh = s.inputsFresh := rfl
@[simp] theorem State.modInput_outputs : (s.modInput i f).outputs = s.outputs := rfl
@[simp] theorem State.modInput_mgmt : (s.modInput i f).mgmt = s.mgmt := rfl
@[simp] theorem State.modInput_supply : (s.modInput i f).supply = s.supply := rfl
@[simp] theorem State.modInput_supplyDue : (s.modInput i f).supplyDue = s.supplyDue := rfl
@[simp] theorem State.modInput_store : (s.modInput i f).store = s.store := rfl
@[simp] theorem State.modInput_restart : (s.modInput i f).restart = s.restart := rfl
@[simp] theorem State.modInput_periodOpen : (s.modInput i f).periodOpen = s.periodOpen := rfl
@[simp] theorem State.modInput_waiting : (s.modInput i f).waiting = s.waiting := rfl
@[simp] theorem State.modInput_words : (s.modInput i f).words = s.words := rfl
@[simp] theorem State.modInput_outFresh : (s.modInput i f).outFresh = s.outFresh := rfl
@[simp] theorem State.modInput_rackFrame : (s.modInput i f).rackFrame = s.rackFrame := rfl
@[simp] theorem State.modInput_outFrame : (s.modInput i f).outFrame = s.outFrame := rfl
@[simp] theorem State.modInput_pending : (s.modInput i f).pending = s.pending := rfl
@[simp] theorem State.modInput_room (x : Room) : (s.modInput i f).room x = s.room x := rfl

end

/-! ### setOutput -/

section
variable (s : State) (o : Fin 24) (on : Bool) (why : LastSet)

@[simp] theorem State.setOutput_rooms : (s.setOutput o on why).rooms = s.rooms := rfl
@[simp] theorem State.setOutput_lanes : (s.setOutput o on why).lanes = s.lanes := rfl
@[simp] theorem State.setOutput_checkTotal : (s.setOutput o on why).checkTotal = s.checkTotal := rfl
@[simp] theorem State.setOutput_law : (s.setOutput o on why).law = s.law := rfl
@[simp] theorem State.setOutput_profiles : (s.setOutput o on why).profiles = s.profiles := rfl
@[simp] theorem State.setOutput_committedTotal : (s.setOutput o on why).committedTotal = s.committedTotal := rfl
@[simp] theorem State.setOutput_blockNumber : (s.setOutput o on why).blockNumber = s.blockNumber := rfl
@[simp] theorem State.setOutput_blockPos : (s.setOutput o on why).blockPos = s.blockPos := rfl
@[simp] theorem State.setOutput_blockEndDue : (s.setOutput o on why).blockEndDue = s.blockEndDue := rfl
@[simp] theorem State.setOutput_blockEnded : (s.setOutput o on why).blockEnded = s.blockEnded := rfl
@[simp] theorem State.setOutput_alarms : (s.setOutput o on why).alarms = s.alarms := rfl
@[simp] theorem State.setOutput_handovers : (s.setOutput o on why).handovers = s.handovers := rfl
@[simp] theorem State.setOutput_inputs : (s.setOutput o on why).inputs = s.inputs := rfl
@[simp] theorem State.setOutput_inputsFresh : (s.setOutput o on why).inputsFresh = s.inputsFresh := rfl
@[simp] theorem State.setOutput_mgmt : (s.setOutput o on why).mgmt = s.mgmt := rfl
@[simp] theorem State.setOutput_supply : (s.setOutput o on why).supply = s.supply := rfl
@[simp] theorem State.setOutput_supplyDue : (s.setOutput o on why).supplyDue = s.supplyDue := rfl
@[simp] theorem State.setOutput_store : (s.setOutput o on why).store = s.store := rfl
@[simp] theorem State.setOutput_restart : (s.setOutput o on why).restart = s.restart := rfl
@[simp] theorem State.setOutput_periodOpen : (s.setOutput o on why).periodOpen = s.periodOpen := rfl
@[simp] theorem State.setOutput_waiting : (s.setOutput o on why).waiting = s.waiting := rfl
@[simp] theorem State.setOutput_words : (s.setOutput o on why).words = s.words := rfl
@[simp] theorem State.setOutput_outFresh : (s.setOutput o on why).outFresh = s.outFresh := rfl
@[simp] theorem State.setOutput_rackFrame : (s.setOutput o on why).rackFrame = s.rackFrame := rfl
@[simp] theorem State.setOutput_outFrame : (s.setOutput o on why).outFrame = s.outFrame := rfl
@[simp] theorem State.setOutput_pending : (s.setOutput o on why).pending = s.pending := rfl
@[simp] theorem State.setOutput_room (x : Room) : (s.setOutput o on why).room x = s.room x := rfl

end

/-! ### modOutput -/

section
variable (s : State) (o : Fin 24) (f : ContactOut → ContactOut)

@[simp] theorem State.modOutput_rooms : (s.modOutput o f).rooms = s.rooms := rfl
@[simp] theorem State.modOutput_lanes : (s.modOutput o f).lanes = s.lanes := rfl
@[simp] theorem State.modOutput_checkTotal : (s.modOutput o f).checkTotal = s.checkTotal := rfl
@[simp] theorem State.modOutput_law : (s.modOutput o f).law = s.law := rfl
@[simp] theorem State.modOutput_profiles : (s.modOutput o f).profiles = s.profiles := rfl
@[simp] theorem State.modOutput_committedTotal : (s.modOutput o f).committedTotal = s.committedTotal := rfl
@[simp] theorem State.modOutput_blockNumber : (s.modOutput o f).blockNumber = s.blockNumber := rfl
@[simp] theorem State.modOutput_blockPos : (s.modOutput o f).blockPos = s.blockPos := rfl
@[simp] theorem State.modOutput_blockEndDue : (s.modOutput o f).blockEndDue = s.blockEndDue := rfl
@[simp] theorem State.modOutput_blockEnded : (s.modOutput o f).blockEnded = s.blockEnded := rfl
@[simp] theorem State.modOutput_alarms : (s.modOutput o f).alarms = s.alarms := rfl
@[simp] theorem State.modOutput_handovers : (s.modOutput o f).handovers = s.handovers := rfl
@[simp] theorem State.modOutput_inputs : (s.modOutput o f).inputs = s.inputs := rfl
@[simp] theorem State.modOutput_inputsFresh : (s.modOutput o f).inputsFresh = s.inputsFresh := rfl
@[simp] theorem State.modOutput_mgmt : (s.modOutput o f).mgmt = s.mgmt := rfl
@[simp] theorem State.modOutput_supply : (s.modOutput o f).supply = s.supply := rfl
@[simp] theorem State.modOutput_supplyDue : (s.modOutput o f).supplyDue = s.supplyDue := rfl
@[simp] theorem State.modOutput_store : (s.modOutput o f).store = s.store := rfl
@[simp] theorem State.modOutput_restart : (s.modOutput o f).restart = s.restart := rfl
@[simp] theorem State.modOutput_periodOpen : (s.modOutput o f).periodOpen = s.periodOpen := rfl
@[simp] theorem State.modOutput_waiting : (s.modOutput o f).waiting = s.waiting := rfl
@[simp] theorem State.modOutput_words : (s.modOutput o f).words = s.words := rfl
@[simp] theorem State.modOutput_outFresh : (s.modOutput o f).outFresh = s.outFresh := rfl
@[simp] theorem State.modOutput_rackFrame : (s.modOutput o f).rackFrame = s.rackFrame := rfl
@[simp] theorem State.modOutput_outFrame : (s.modOutput o f).outFrame = s.outFrame := rfl
@[simp] theorem State.modOutput_pending : (s.modOutput o f).pending = s.pending := rfl
@[simp] theorem State.modOutput_room (x : Room) : (s.modOutput o f).room x = s.room x := rfl

end

/-! ### modProfile -/

section
variable (s : State) (p : Fin 4) (f : Profile → Profile)

@[simp] theorem State.modProfile_rooms : (s.modProfile p f).rooms = s.rooms := rfl
@[simp] theorem State.modProfile_lanes : (s.modProfile p f).lanes = s.lanes := rfl
@[simp] theorem State.modProfile_checkTotal : (s.modProfile p f).checkTotal = s.checkTotal := rfl
@[simp] theorem State.modProfile_law : (s.modProfile p f).law = s.law := rfl
@[simp] theorem State.modProfile_committedTotal : (s.modProfile p f).committedTotal = s.committedTotal := rfl
@[simp] theorem State.modProfile_blockNumber : (s.modProfile p f).blockNumber = s.blockNumber := rfl
@[simp] theorem State.modProfile_blockPos : (s.modProfile p f).blockPos = s.blockPos := rfl
@[simp] theorem State.modProfile_blockEndDue : (s.modProfile p f).blockEndDue = s.blockEndDue := rfl
@[simp] theorem State.modProfile_blockEnded : (s.modProfile p f).blockEnded = s.blockEnded := rfl
@[simp] theorem State.modProfile_alarms : (s.modProfile p f).alarms = s.alarms := rfl
@[simp] theorem State.modProfile_handovers : (s.modProfile p f).handovers = s.handovers := rfl
@[simp] theorem State.modProfile_inputs : (s.modProfile p f).inputs = s.inputs := rfl
@[simp] theorem State.modProfile_inputsFresh : (s.modProfile p f).inputsFresh = s.inputsFresh := rfl
@[simp] theorem State.modProfile_outputs : (s.modProfile p f).outputs = s.outputs := rfl
@[simp] theorem State.modProfile_mgmt : (s.modProfile p f).mgmt = s.mgmt := rfl
@[simp] theorem State.modProfile_supply : (s.modProfile p f).supply = s.supply := rfl
@[simp] theorem State.modProfile_supplyDue : (s.modProfile p f).supplyDue = s.supplyDue := rfl
@[simp] theorem State.modProfile_store : (s.modProfile p f).store = s.store := rfl
@[simp] theorem State.modProfile_restart : (s.modProfile p f).restart = s.restart := rfl
@[simp] theorem State.modProfile_periodOpen : (s.modProfile p f).periodOpen = s.periodOpen := rfl
@[simp] theorem State.modProfile_waiting : (s.modProfile p f).waiting = s.waiting := rfl
@[simp] theorem State.modProfile_words : (s.modProfile p f).words = s.words := rfl
@[simp] theorem State.modProfile_outFresh : (s.modProfile p f).outFresh = s.outFresh := rfl
@[simp] theorem State.modProfile_rackFrame : (s.modProfile p f).rackFrame = s.rackFrame := rfl
@[simp] theorem State.modProfile_outFrame : (s.modProfile p f).outFrame = s.outFrame := rfl
@[simp] theorem State.modProfile_pending : (s.modProfile p f).pending = s.pending := rfl
@[simp] theorem State.modProfile_room (x : Room) : (s.modProfile p f).room x = s.room x := rfl

end

/-! ### replied -/

section
variable (s : State) (h : Header) (k : Kind) (res : Result) (fs : List Fld)

@[simp] theorem State.replied_rooms : (s.replied h k res fs).rooms = s.rooms := rfl
@[simp] theorem State.replied_lanes : (s.replied h k res fs).lanes = s.lanes := rfl
@[simp] theorem State.replied_checkTotal : (s.replied h k res fs).checkTotal = s.checkTotal := rfl
@[simp] theorem State.replied_law : (s.replied h k res fs).law = s.law := rfl
@[simp] theorem State.replied_profiles : (s.replied h k res fs).profiles = s.profiles := rfl
@[simp] theorem State.replied_committedTotal : (s.replied h k res fs).committedTotal = s.committedTotal := rfl
@[simp] theorem State.replied_blockNumber : (s.replied h k res fs).blockNumber = s.blockNumber := rfl
@[simp] theorem State.replied_blockPos : (s.replied h k res fs).blockPos = s.blockPos := rfl
@[simp] theorem State.replied_blockEndDue : (s.replied h k res fs).blockEndDue = s.blockEndDue := rfl
@[simp] theorem State.replied_blockEnded : (s.replied h k res fs).blockEnded = s.blockEnded := rfl
@[simp] theorem State.replied_alarms : (s.replied h k res fs).alarms = s.alarms := rfl
@[simp] theorem State.replied_handovers : (s.replied h k res fs).handovers = s.handovers := rfl
@[simp] theorem State.replied_inputs : (s.replied h k res fs).inputs = s.inputs := rfl
@[simp] theorem State.replied_inputsFresh : (s.replied h k res fs).inputsFresh = s.inputsFresh := rfl
@[simp] theorem State.replied_outputs : (s.replied h k res fs).outputs = s.outputs := rfl
@[simp] theorem State.replied_supply : (s.replied h k res fs).supply = s.supply := rfl
@[simp] theorem State.replied_supplyDue : (s.replied h k res fs).supplyDue = s.supplyDue := rfl
@[simp] theorem State.replied_store : (s.replied h k res fs).store = s.store := rfl
@[simp] theorem State.replied_restart : (s.replied h k res fs).restart = s.restart := rfl
@[simp] theorem State.replied_periodOpen : (s.replied h k res fs).periodOpen = s.periodOpen := rfl
@[simp] theorem State.replied_waiting : (s.replied h k res fs).waiting = s.waiting := rfl
@[simp] theorem State.replied_words : (s.replied h k res fs).words = s.words := rfl
@[simp] theorem State.replied_outFresh : (s.replied h k res fs).outFresh = s.outFresh := rfl
@[simp] theorem State.replied_rackFrame : (s.replied h k res fs).rackFrame = s.rackFrame := rfl
@[simp] theorem State.replied_outFrame : (s.replied h k res fs).outFrame = s.outFrame := rfl
@[simp] theorem State.replied_pending : (s.replied h k res fs).pending = s.pending := rfl
@[simp] theorem State.replied_room (x : Room) : (s.replied h k res fs).room x = s.room x := rfl

end

/-! ### repliedTo -/

section
variable (s : State) (q : Request) (res : Result) (body : List Payload)

@[simp] theorem State.repliedTo_rooms : (s.repliedTo q res body).rooms = s.rooms := rfl
@[simp] theorem State.repliedTo_lanes : (s.repliedTo q res body).lanes = s.lanes := rfl
@[simp] theorem State.repliedTo_checkTotal : (s.repliedTo q res body).checkTotal = s.checkTotal := rfl
@[simp] theorem State.repliedTo_law : (s.repliedTo q res body).law = s.law := rfl
@[simp] theorem State.repliedTo_profiles : (s.repliedTo q res body).profiles = s.profiles := rfl
@[simp] theorem State.repliedTo_committedTotal : (s.repliedTo q res body).committedTotal = s.committedTotal := rfl
@[simp] theorem State.repliedTo_blockNumber : (s.repliedTo q res body).blockNumber = s.blockNumber := rfl
@[simp] theorem State.repliedTo_blockPos : (s.repliedTo q res body).blockPos = s.blockPos := rfl
@[simp] theorem State.repliedTo_blockEndDue : (s.repliedTo q res body).blockEndDue = s.blockEndDue := rfl
@[simp] theorem State.repliedTo_blockEnded : (s.repliedTo q res body).blockEnded = s.blockEnded := rfl
@[simp] theorem State.repliedTo_alarms : (s.repliedTo q res body).alarms = s.alarms := rfl
@[simp] theorem State.repliedTo_handovers : (s.repliedTo q res body).handovers = s.handovers := rfl
@[simp] theorem State.repliedTo_inputs : (s.repliedTo q res body).inputs = s.inputs := rfl
@[simp] theorem State.repliedTo_inputsFresh : (s.repliedTo q res body).inputsFresh = s.inputsFresh := rfl
@[simp] theorem State.repliedTo_outputs : (s.repliedTo q res body).outputs = s.outputs := rfl
@[simp] theorem State.repliedTo_supply : (s.repliedTo q res body).supply = s.supply := rfl
@[simp] theorem State.repliedTo_supplyDue : (s.repliedTo q res body).supplyDue = s.supplyDue := rfl
@[simp] theorem State.repliedTo_store : (s.repliedTo q res body).store = s.store := rfl
@[simp] theorem State.repliedTo_restart : (s.repliedTo q res body).restart = s.restart := rfl
@[simp] theorem State.repliedTo_periodOpen : (s.repliedTo q res body).periodOpen = s.periodOpen := rfl
@[simp] theorem State.repliedTo_waiting : (s.repliedTo q res body).waiting = s.waiting := rfl
@[simp] theorem State.repliedTo_words : (s.repliedTo q res body).words = s.words := rfl
@[simp] theorem State.repliedTo_outFresh : (s.repliedTo q res body).outFresh = s.outFresh := rfl
@[simp] theorem State.repliedTo_rackFrame : (s.repliedTo q res body).rackFrame = s.rackFrame := rfl
@[simp] theorem State.repliedTo_outFrame : (s.repliedTo q res body).outFrame = s.outFrame := rfl
@[simp] theorem State.repliedTo_pending : (s.repliedTo q res body).pending = s.pending := rfl
@[simp] theorem State.repliedTo_room (x : Room) : (s.repliedTo q res body).room x = s.room x := rfl

end

/-! ### One room -/

@[simp] theorem State.room_modRoom_self (s : State) (r : Room) (f : RoomRec → RoomRec) :
    (s.modRoom r f).room r = f (s.room r) := by
  simp [State.room, State.modRoom]

theorem State.room_modRoom_ne (s : State) {r q : Room} (f : RoomRec → RoomRec) (h : q ≠ r) :
    (s.modRoom r f).room q = s.room q := by
  have h' : (r : Nat) ≠ q := fun e => h (Fin.ext e.symm)
  simp [State.room, State.modRoom, Vector.getElem_set_ne, h']

theorem State.room_modRoom (s : State) (r q : Room) (f : RoomRec → RoomRec) :
    (s.modRoom r f).room q = if q = r then f (s.room r) else s.room q := by
  by_cases h : q = r
  · subst h; simp
  · simp [h, State.room_modRoom_ne]

@[simp] theorem State.room_mapRooms (s : State) (r : Room) (f : RoomRec → RoomRec) :
    (s.mapRooms f).room r = f (s.room r) := by
  simp [State.room, State.mapRooms]

/-- Two changes of one room are one. -/
theorem State.modRoom_modRoom (s : State) (r : Room) (f g : RoomRec → RoomRec) :
    (s.modRoom r f).modRoom r g = s.modRoom r fun rm => g (f rm) := by
  simp [State.modRoom]

/-- A change that leaves the room as it is changes nothing. -/
theorem State.modRoom_self (s : State) (r : Room) (f : RoomRec → RoomRec) (h : f (s.room r) = s.room r) :
    s.modRoom r f = s := by
  have h' : s.rooms.set r.val (f s.rooms[r]) r.isLt = s.rooms := by
    rw [show f s.rooms[r] = s.rooms[r] from h]
    exact Vector.set_getElem_self r.isLt
  simp only [State.modRoom, h']

/-- Two changes with the same result are the same change. -/
theorem State.modRoom_congr (s : State) (r : Room) (f g : RoomRec → RoomRec) (h : f (s.room r) = g (s.room r)) :
    s.modRoom r f = s.modRoom r g := by
  simp only [State.modRoom]
  rw [show f s.rooms[r] = g s.rooms[r] from h]

/-! ### The queues of the Management Unit -/

@[simp] theorem State.notify_mgmt (s : State) (r : Room) (b : NoticeBody) :
    (s.notify r b).mgmt = s.mgmt.raise (some (r, (s.room r).snapshot)) b := rfl
@[simp] theorem State.notifyPart_mgmt (s : State) (b : NoticeBody) :
    (s.notifyPart b).mgmt = s.mgmt.raise none b := rfl

section
variable (m : Mgmt) (room : Option (Room × Snapshot)) (b : NoticeBody)

@[simp] theorem Mgmt.raise_asm : (m.raise room b).asm = m.asm := by unfold Mgmt.raise; split <;> rfl
@[simp] theorem Mgmt.raise_queue : (m.raise room b).queue = m.queue := by unfold Mgmt.raise; split <;> rfl
@[simp] theorem Mgmt.raise_holder : (m.raise room b).holder = m.holder := by unfold Mgmt.raise; split <;> rfl
@[simp] theorem Mgmt.raise_sending : (m.raise room b).sending = m.sending := by unfold Mgmt.raise; split <;> rfl
@[simp] theorem Mgmt.raise_malformed : (m.raise room b).malformed = m.malformed := by unfold Mgmt.raise; split <;> rfl
@[simp] theorem Mgmt.raise_overflow : (m.raise room b).overflow = m.overflow := by unfold Mgmt.raise; split <;> rfl

/-- A notice that finds room joins the tail with the drop count (R205). -/
theorem Mgmt.raise_of_lt (h : m.notices.length < 32) :
    m.raise room b = { m with notices := m.notices ++ [⟨room, b, m.dropCount⟩], dropCount := 0 } := by
  simp [Mgmt.raise, h]

/-- A notice that finds 32 waiting is discarded and counted (R205). -/
theorem Mgmt.raise_of_full (h : 32 ≤ m.notices.length) :
    m.raise room b =
      { m with dropCount := min 255 (m.dropCount + 1), discardTotal := m.discardTotal + 1 } := by
  simp [Mgmt.raise, Nat.not_lt.mpr h]

end

end Sys2Proof.Machine
end

