-- ==== Sys2Proof/Laws/Requests.lean ====
section
/-! SUPPORT. The path of a request from its arrival to its reply (R188 to R200): what the arrival of a message does, what
taking the head does, and which requests reach the rule of their kind. -/

namespace Sys2Proof.Machine

/-! ### Arrival -/

/-- A request row, and BOOTH_MESSAGE, is the completion of its message in the period in progress, or in the one that opens. -/
theorem exec_of_request {i : Instr} {q : Request} (s : State) (h : request? i = some q) :
    exec i s = .next (s.openPeriod.breakAssembly.complete q) := by
  cases i <;> first
    | (simp only [request?, Option.some.injEq] at h; subst h; rfl)
    | simp [request?] at h

/-- An open period stays. -/
theorem State.openPeriod_of_open {s : State} (h : s.periodOpen = true) : s.openPeriod = s := by
  simp [State.openPeriod, h]

/-- An assembly that is IDLE is not broken (R189). -/
theorem State.breakAssembly_of_idle {s : State} (h : s.mgmt.asm.stage = .idle) : s.breakAssembly = s := by
  simp [State.breakAssembly, h]

/-- An assembly in progress is broken and counted (R189). -/
theorem State.breakAssembly_of_busy {s : State} (h : s.mgmt.asm.stage ≠ .idle) :
    s.breakAssembly = { s with mgmt := { s.mgmt with asm := .idle, malformed := s.mgmt.malformed + 1 } } := by
  simp [State.breakAssembly, State.discardAssembly, h]

/-- Judging a request and issuing its reply (R193). -/
theorem State.perform1_eq (s : State) (q : Request) :
    s.perform1 q = (s.answer q).1.repliedTo q (s.answer q).2.1 (s.answer q).2.2 := rfl

/-- The head is taken when the holder is empty and the queue is not, and otherwise nothing happens (R193). -/
theorem State.takeHead_cases (s : State) :
    (∃ q rest, s.mgmt.holder = none ∧ s.mgmt.queue = q :: rest ∧
      s.takeHead = ({ s with mgmt := { s.mgmt with queue := rest } } : State).perform1 q) ∨
    ((s.mgmt.holder ≠ none ∨ s.mgmt.queue = []) ∧ s.takeHead = s) := by
  unfold State.takeHead
  rcases hh : s.mgmt.holder with _ | m <;> rcases hq : s.mgmt.queue with _ | ⟨q, rest⟩ <;> simp

/-- A request that completes joins the queue, and the head may be taken; or the queue is full, and it is discarded, counted and
announced (R192, R193). -/
theorem State.complete_cases (s : State) (q : Request) :
    (s.mgmt.queue.length < 4 ∧
      s.complete q = ({ s with mgmt := { s.mgmt with queue := s.mgmt.queue ++ [q] } } : State).takeHead) ∨
    (4 ≤ s.mgmt.queue.length ∧
      s.complete q =
        ({ s with mgmt := { s.mgmt with overflow := s.mgmt.overflow + 1 } } : State).notifyPart (.queueOverflow q)) := by
  unfold State.complete
  by_cases h : s.mgmt.queue.length < 4
  · exact .inl ⟨h, by simp [h]⟩
  · exact .inr ⟨by omega, by simp [h]⟩

/-- A request that arrives while nothing is held or waiting is judged at once (R193). -/
theorem State.complete_of_listening {s : State} (q : Request) (h : s.listening) : s.complete q = s.perform1 q := by
  obtain ⟨-, -, hq, hh⟩ := h
  have same : ({ s with mgmt := { s.mgmt with queue := [] } } : State) = s :=
    congrArg (fun l => ({ s with mgmt := { s.mgmt with queue := l } } : State)) hq.symm
  rcases s.complete_cases q with ⟨-, e⟩ | ⟨full, -⟩
  · rw [e]
    rcases State.takeHead_cases { s with mgmt := { s.mgmt with queue := s.mgmt.queue ++ [q] } } with
      ⟨q', rest, -, hq', e'⟩ | ⟨h', -⟩
    · simp only [hq, List.nil_append, List.cons.injEq] at hq'
      obtain ⟨rfl, rfl⟩ := hq'
      rw [e']
      exact congrArg (fun t : State => t.perform1 q) same
    · simp [hh] at h'
  · simp [hq] at full

/-! ### Commands one after another -/

@[simp] theorem State.after_nil (s : State) : s.after [] = s := rfl

/-- A command that answers a next state is taken, and the others after it. -/
theorem State.after_cons {s t : State} {c : Instr} (cs : List Instr) (h : exec c s = .next t) :
    s.after (c :: cs) = t.after cs := by
  simp [State.after, h]

theorem State.after_append (s : State) (a b : List Instr) : s.after (a ++ b) = (s.after a).after b := List.foldl_append

/-! ### Notices one after another -/

@[simp] theorem Mgmt.told_nil (m : Mgmt) (r : Room) (rm : RoomRec) : m.told r rm [] = m := rfl

@[simp] theorem Mgmt.told_cons (m : Mgmt) (r : Room) (rm : RoomRec) (b : NoticeBody) (l : List NoticeBody) :
    m.told r rm (b :: l) = (m.raise (some (r, rm.snapshot)) b).told r rm l := rfl

/-! ### Judgement -/

/-- What taking a request can end in: MALFORMED, a refusal by steps 2 to 5, or the rule of its kind (R195). -/
theorem State.answer_cases (s : State) (q : Request) :
    (q.formed = none ∧ s.answer q = (s, .malformed, [])) ∨
    (∃ k res, q.formed = some k ∧ s.admission k q = some res ∧ s.answer q = (s, res, [])) ∨
    ∃ k, q.formed = some k ∧ s.admission k q = none ∧ s.answer q = s.serve k q := by
  unfold State.answer
  rcases hf : q.formed with _ | k
  · exact .inl ⟨rfl, rfl⟩
  · rcases ha : s.admission k q with _ | res
    · exact .inr (.inr ⟨k, rfl, ha, by simp [ha]⟩)
    · exact .inr (.inl ⟨k, res, rfl, ha, by simp [ha, State.refuse]⟩)

/-- A request that reaches the rule of its kind is answered by it. -/
theorem State.answer_of_admitted {s : State} {q : Request} {k : Kind} (hf : q.formed = some k)
    (ha : s.admission k q = none) : s.answer q = s.serve k q := by
  simp [State.answer, hf, ha]

/-- A request that is refused by steps 2 to 5. -/
theorem State.answer_of_refused {s : State} {q : Request} {k : Kind} {res : Result} (hf : q.formed = some k)
    (ha : s.admission k q = some res) : s.answer q = (s, res, []) := by
  simp [State.answer, hf, ha, State.refuse]

/-- The whole of a request's course when it arrives alone and is admitted. -/
theorem exec_of_admitted {i : Instr} {q : Request} {k : Kind} {s : State} (hi : request? i = some q) (hl : s.listening)
    (hf : q.formed = some k) (ha : s.admission k q = none) :
    exec i s = .next ((s.serve k q).1.repliedTo q (s.serve k q).2.1 (s.serve k q).2.2) := by
  rw [exec_of_request s hi, State.openPeriod_of_open hl.1, State.breakAssembly_of_idle hl.2.1, State.complete_of_listening q hl, State.perform1_eq,
    State.answer_of_admitted hf ha]

/-- The same for a request that is refused by steps 2 to 5. -/
theorem exec_of_refused {i : Instr} {q : Request} {k : Kind} {res : Result} {s : State} (hi : request? i = some q)
    (hl : s.listening) (hf : q.formed = some k) (ha : s.admission k q = some res) :
    exec i s = .next (s.repliedTo q res []) := by
  rw [exec_of_request s hi, State.openPeriod_of_open hl.1, State.breakAssembly_of_idle hl.2.1, State.complete_of_listening q hl, State.perform1_eq,
    State.answer_of_refused hf ha]

/-! ### Admission -/

/-- A message that names room `r` names it to every rule. -/
theorem below_of_eq {n v : Nat} {k : Fin n} (h : v = k.val) : below n v = some k := by
  subst h; simp [below]

theorem Request.room?_of_eq {q : Request} {r : Room} (h : q.room.toNat = r.val) : q.room? = some r := below_of_eq h

/-- A room write with its level passes steps 2 to 5 (R196 to R199). -/
theorem State.admission_roomWrite {s : State} {k : Kind} {q : Request} {r : Room} (hk : k.form = .room)
    (hc : k.levelClass = .roomWrite) (hr : q.room.toNat = r.val) (hop : s.operational)
    (hl : q.level.toNat ≤ 2) (hg : q.level.toNat ≤ (s.room r).guard.val) : s.admission k q = none := by
  obtain ⟨h1, h2, h3⟩ := hop
  have hlt := r.isLt
  simp [State.admission, hk, hc, RoomForm.passes, State.notReady, h1, h2, h3, State.levelPasses, atMost,
    Request.room?_of_eq hr, hl, hg, hr, hlt]

/-- A part-table write with its level passes steps 2 to 5 (R196 to R199). -/
theorem State.admission_partTable {s : State} {k : Kind} {q : Request} (hk : k.form = .none)
    (hc : k.levelClass = .partTable) (hr : q.room.toNat = 15) (hop : s.operational) (hl : q.level.toNat ≤ 1) :
    s.admission k q = none := by
  obtain ⟨h1, h2, h3⟩ := hop
  simp [State.admission, hk, hc, RoomForm.passes, State.notReady, h1, h2, h3, State.levelPasses, atMost, hl, hr]

/-- A read whose room code suits its kind passes steps 2 to 5 outside the initialisation and a restart (R196 to R199). -/
theorem State.admission_read {s : State} {k : Kind} {q : Request} (hc : k.levelClass = .any)
    (hr : k.form.passes q.room = true) (hop : s.readable) : s.admission k q = none := by
  obtain ⟨h1, h2⟩ := hop
  have hread : k.isRead = true := by simp [Kind.isRead, hc]
  simp [State.admission, hc, hr, State.notReady, h1, h2, State.levelPasses, hread]

end Sys2Proof.Machine
end

