-- ==== Sys2Proof/Laws/Rooms.lean ====
section
/-! SUPPORT. What the shared operations on rooms can do, each said once: notices, and the change of a room's state. -/

namespace Sys2Proof.Machine

/-! ### Only rooms, alarms and notices differ -/

theorem State.onlyRooms_refl (s : State) : s.onlyRooms s := rfl

theorem State.onlyRooms_trans {s t u : State} (h : s.onlyRooms t) (h' : t.onlyRooms u) : s.onlyRooms u := by
  unfold State.onlyRooms at *
  rw [h'] ; rw [h]

theorem Mgmt.raise_eq (m : Mgmt) (room : Option (Room × Snapshot)) (b : NoticeBody) :
    m.raise room b = { m with
      notices := (m.raise room b).notices, dropCount := (m.raise room b).dropCount
      discardTotal := (m.raise room b).discardTotal } := by
  unfold Mgmt.raise
  split <;> rfl

theorem State.onlyRooms_notify (s : State) (r : Room) (b : NoticeBody) : s.onlyRooms (s.notify r b) := by
  unfold State.onlyRooms State.notify
  dsimp only
  rw [Mgmt.raise_eq]

theorem State.onlyRooms_notifyPart (s : State) (b : NoticeBody) : s.onlyRooms (s.notifyPart b) := by
  unfold State.onlyRooms State.notifyPart
  dsimp only
  rw [Mgmt.raise_eq]

theorem State.onlyRooms_modRoom (s : State) (r : Room) (f : RoomRec → RoomRec) : s.onlyRooms (s.modRoom r f) := rfl

theorem State.onlyRooms_mapRooms (s : State) (f : RoomRec → RoomRec) : s.onlyRooms (s.mapRooms f) := rfl

/-! ### The change of a room's state -/

/-- The room's record after `State.transit`: `f` after the end of a dip where the room leaves LIVE, with the mark of a room that
enters LIVE or PARKED (R7, R68, R119). -/
def RoomRec.afterTransit (rm : RoomRec) (f : RoomRec → RoomRec) : RoomRec :=
  (f (if rm.path.state = .live ∧ (f rm).path.state ≠ .live then rm.endDip else rm)).markEntry rm.path.state

/-- Notices raised one after another change no room and nothing but the notices. -/
theorem State.foldl_notify (r : Room) (l : List NoticeBody) : ∀ s : State,
    s.onlyRooms (l.foldl (fun t b => t.notify r b) s) ∧ (l.foldl (fun t b => t.notify r b) s).rooms = s.rooms ∧
      (l.foldl (fun t b => t.notify r b) s).alarms = s.alarms := by
  induction l with
  | nil => exact fun s => ⟨rfl, rfl, rfl⟩
  | cons b l ih =>
    intro s
    obtain ⟨h1, h2, h3⟩ := ih (s.notify r b)
    exact ⟨State.onlyRooms_trans (State.onlyRooms_notify s r b) h1, h2, h3⟩

/-- What a change of a room's state can do: the room's record is the one above, no other room and no alarm entry changes, and
nothing but notices is raised (R7). -/
theorem State.transit_spec (s : State) (r : Room) (own : List NoticeBody) (f : RoomRec → RoomRec) :
    s.onlyRooms (s.transit r own f) ∧ (s.transit r own f).alarms = s.alarms ∧
      (s.transit r own f).rooms = (s.modRoom r fun _ => (s.room r).afterTransit f).rooms := by
  unfold State.transit
  dsimp only
  obtain ⟨h1, h2, h3⟩ := State.foldl_notify r own
    (if (s.room r).path.state ≠ ((s.room r).afterTransit f).path.state then
      (s.modRoom r fun _ => (s.room r).afterTransit f).notify r (.roomState (s.room r).path.state)
    else s.modRoom r fun _ => (s.room r).afterTransit f)
  have hn : ∀ (c : Prop) [Decidable c] (u : State) (b : NoticeBody),
      u.onlyRooms (if c then u.notify r b else u) ∧ (if c then u.notify r b else u).rooms = u.rooms ∧
        (if c then u.notify r b else u).alarms = u.alarms := by
    intro c _ u b
    split
    · exact ⟨State.onlyRooms_notify u r b, rfl, rfl⟩
    · exact ⟨rfl, rfl, rfl⟩
  obtain ⟨k1, k2, k3⟩ := hn ((s.room r).path.state ≠ ((s.room r).afterTransit f).path.state)
    (s.modRoom r fun _ => (s.room r).afterTransit f) (.roomState (s.room r).path.state)
  have m1 := State.onlyRooms_trans (State.onlyRooms_trans (State.onlyRooms_modRoom s r fun _ => (s.room r).afterTransit f) k1) h1
  unfold RoomRec.afterTransit at *
  split
  · exact ⟨State.onlyRooms_trans m1 (State.onlyRooms_notify _ _ _), h3.trans k3, h2.trans k2⟩
  · exact ⟨m1, h3.trans k3, h2.trans k2⟩

theorem State.onlyRooms_transit (s : State) (r : Room) (own : List NoticeBody) (f : RoomRec → RoomRec) :
    s.onlyRooms (s.transit r own f) := (s.transit_spec r own f).1

@[simp] theorem State.transit_alarms (s : State) (r : Room) (own : List NoticeBody) (f : RoomRec → RoomRec) :
    (s.transit r own f).alarms = s.alarms := (s.transit_spec r own f).2.1

/-- The room that changes state. -/
@[simp] theorem State.transit_room_self (s : State) (r : Room) (own : List NoticeBody) (f : RoomRec → RoomRec) :
    (s.transit r own f).room r = (s.room r).afterTransit f := by
  have h : (s.transit r own f).room r = (s.modRoom r fun _ => (s.room r).afterTransit f).room r :=
    congrArg (fun v : Vector RoomRec 12 => v[r]) (s.transit_spec r own f).2.2
  rw [h, State.room_modRoom_self]

/-- Every other room. -/
theorem State.transit_room_ne (s : State) {r q : Room} (own : List NoticeBody) (f : RoomRec → RoomRec) (h : q ≠ r) :
    (s.transit r own f).room q = s.room q := by
  have e : (s.transit r own f).room q = (s.modRoom r fun _ => (s.room r).afterTransit f).room q :=
    congrArg (fun v : Vector RoomRec 12 => v[q]) (s.transit_spec r own f).2.2
  rw [e, State.room_modRoom_ne _ _ h]

/-- The notices of a change of a room's state, in order. -/
def RoomRec.transitNotices (rm : RoomRec) (own : List NoticeBody) (f : RoomRec → RoomRec) : List NoticeBody :=
  (if rm.path.state = (rm.afterTransit f).path.state then [] else [.roomState rm.path.state]) ++ own ++
    if rm.path.state = .live ∧ (f rm).path.state ≠ .live ∧ rm.dip.stage ≠ .idle then
      rm.dip.bankSlot.toList.map fun n => .bankSwapped rm.bankInService n
    else []

/-- Notices of one room raised one after another. -/
theorem State.mgmt_foldl_notify (r : Room) (l : List NoticeBody) :
    ∀ u : State, (l.foldl (fun t b => t.notify r b) u).mgmt = u.mgmt.told r (u.room r) l := by
  induction l with
  | nil => exact fun u => rfl
  | cons b l ih => intro u; rw [List.foldl_cons, ih]; rfl

/-- A change of a room's state raises the notices above, each with the snapshot after the change (R7, R68, R103, R104). -/
theorem State.transit_mgmt (s : State) (r : Room) (own : List NoticeBody) (f : RoomRec → RoomRec) :
    (s.transit r own f).mgmt = s.mgmt.told r ((s.room r).afterTransit f) ((s.room r).transitNotices own f) := by
  let u := s.modRoom r fun _ => (s.room r).afterTransit f
  have hu : u.room r = (s.room r).afterTransit f := State.room_modRoom_self s r _
  have one : (if (s.room r).path.state ≠ ((s.room r).afterTransit f).path.state then
      u.notify r (.roomState (s.room r).path.state) else u) =
      (if (s.room r).path.state = ((s.room r).afterTransit f).path.state then ([] : List NoticeBody)
        else [.roomState (s.room r).path.state]).foldl (fun t b => t.notify r b) u := by
    by_cases h : (s.room r).path.state = ((s.room r).afterTransit f).path.state <;> simp [h]
  have sw : (if (s.room r).path.state = .live ∧ (f (s.room r)).path.state ≠ .live then (s.room r).endDipSwap else none).toList
      = if (s.room r).path.state = .live ∧ (f (s.room r)).path.state ≠ .live ∧ (s.room r).dip.stage ≠ .idle then
      (s.room r).dip.bankSlot.toList.map fun n => NoticeBody.bankSwapped (s.room r).bankInService n
    else [] := by
    unfold RoomRec.endDipSwap RoomRec.swapBody
    by_cases h1 : (s.room r).path.state = .live <;> by_cases h2 : (f (s.room r)).path.state = .live <;>
      by_cases h3 : (s.room r).dip.stage = .idle <;> cases hb : (s.room r).dip.bankSlot <;> simp [h1, h2, h3]
  have shape : s.transit r own f = ((s.room r).transitNotices own f).foldl (fun t b => t.notify r b) u := by
    unfold RoomRec.transitNotices
    rw [← sw, List.foldl_append, List.foldl_append, ← one]
    unfold State.transit RoomRec.afterTransit
    dsimp only
    split
    · rename_i b e
      rw [e]
      rfl
    · rename_i e
      rw [e]
      rfl
  rw [shape, State.mgmt_foldl_notify, hu]
  rfl

/-! ### Operations that touch rooms, alarms and notices alone -/

theorem State.onlyRooms_setAlarms (s : State) (l : List AlarmEntry) : s.onlyRooms { s with alarms := l } := rfl

theorem State.onlyRooms_enterOff (s : State) (r : Room) : s.onlyRooms (s.enterOff r) :=
  State.onlyRooms_trans (State.onlyRooms_transit s r [] RoomRec.toOff) (State.onlyRooms_setAlarms _ _)

theorem State.onlyRooms_enterHalted (s : State) (r : Room) : s.onlyRooms (s.enterHalted r) :=
  State.onlyRooms_trans (State.onlyRooms_transit s r [] RoomRec.toHalted) (State.onlyRooms_setAlarms _ _)

theorem State.onlyRooms_handOn (s : State) (r : Room) (c : DipChange) : s.onlyRooms (s.handOn r c) := by
  unfold State.handOn
  dsimp only
  split
  · exact State.onlyRooms_modRoom s r _
  · split
    · rfl
    · split
      · exact State.onlyRooms_trans (State.onlyRooms_modRoom s r _) (State.onlyRooms_notify _ r _)
      · exact State.onlyRooms_modRoom s r _

theorem State.onlyRooms_dipBottom (s : State) (r : Room) : s.onlyRooms (s.dipBottom r) := by
  unfold State.dipBottom
  dsimp only
  split
  · exact State.onlyRooms_trans (State.onlyRooms_modRoom s r _) (State.onlyRooms_notify _ r _)
  · exact State.onlyRooms_modRoom s r _

theorem State.onlyRooms_raiseCond (s : State) (r : Room) (x : CondId) (p n : Nat) : s.onlyRooms (s.raiseCond r x p n) := by
  unfold State.raiseCond
  dsimp only
  split
  · exact State.onlyRooms_trans (State.onlyRooms_trans (State.onlyRooms_trans (State.onlyRooms_setAlarms s _)
      (State.onlyRooms_modRoom _ r _)) (State.onlyRooms_notify _ r _)) (State.onlyRooms_notify _ r _)
  · exact State.onlyRooms_trans (State.onlyRooms_trans (State.onlyRooms_setAlarms s _)
      (State.onlyRooms_modRoom _ r _)) (State.onlyRooms_notify _ r _)

theorem State.onlyRooms_clearCond (s : State) (r : Room) (x : CondId) : s.onlyRooms (s.clearCond r x) :=
  State.onlyRooms_trans (State.onlyRooms_trans (State.onlyRooms_setAlarms s _) (State.onlyRooms_modRoom _ r _))
    (State.onlyRooms_notify _ r _)

theorem State.onlyRooms_ackOne (s : State) (r : Room) (x : CondId) (n m : Nat) :
    s.onlyRooms (State.ackOne r (s, n, m) x).1 := by
  have h := State.onlyRooms_setAlarms s (s.alarms.filter fun e => !e.is r x)
  have h2 := State.onlyRooms_trans h (State.onlyRooms_modRoom _ r fun rm =>
    rm.putCond x { phase := CondPhase.heldAck, run := 0, unlisted := false })
  unfold State.ackOne
  dsimp only
  split
  · exact h2
  · exact h

/-! ### Fields that only a change outside the rooms could touch -/

section
variable {s t : State} (h : s.onlyRooms t)
include h

theorem State.onlyRooms_law : t.law = s.law := by rw [h]
theorem State.onlyRooms_lanes : t.lanes = s.lanes := by rw [h]
theorem State.onlyRooms_profiles : t.profiles = s.profiles := by rw [h]
theorem State.onlyRooms_committedTotal : t.committedTotal = s.committedTotal := by rw [h]
theorem State.onlyRooms_blockPos : t.blockPos = s.blockPos := by rw [h]
theorem State.onlyRooms_blockEndDue : t.blockEndDue = s.blockEndDue := by rw [h]
theorem State.onlyRooms_blockEnded : t.blockEnded = s.blockEnded := by rw [h]
theorem State.onlyRooms_blockNumber : t.blockNumber = s.blockNumber := by rw [h]
theorem State.onlyRooms_inputs : t.inputs = s.inputs := by rw [h]
theorem State.onlyRooms_outputs : t.outputs = s.outputs := by rw [h]
theorem State.onlyRooms_periodOpen : t.periodOpen = s.periodOpen := by rw [h]
theorem State.onlyRooms_waiting : t.waiting = s.waiting := by rw [h]
theorem State.onlyRooms_words : t.words = s.words := by rw [h]
theorem State.onlyRooms_supply : t.supply = s.supply := by rw [h]
theorem State.onlyRooms_cuesFire : t.cuesFire = s.cuesFire := by rw [h]; rfl
theorem State.onlyRooms_pending : t.pending = s.pending := by rw [h]

end

/-! ### The end of a dip -/

theorem Cond.requiet_eq (c : Cond) : c.requiet = if c.phase = .raised ∨ c.phase = .heldAck then c else .quiet := by
  unfold Cond.requiet
  cases c.phase <;> simp

@[simp] theorem Timecode.switch_self (tc : Timecode) (l : Option Lane) : tc.switch l l = tc := by simp [Timecode.switch]

/-- A format change, field by field (R74). -/
theorem RoomRec.applyFormat_eq (rm : RoomRec) (i : Fin 4) : rm.applyFormat i = { rm with
    activeFormat := i
    decode := if rm.entersMx4 i then .zero else rm.decode
    ahead := rm.ahead.map fun e => { e with decodeStands := e.decodeStands && !rm.entersMx4 i } } := by
  unfold RoomRec.applyFormat RoomRec.zeroDecode
  cases rm.entersMx4 i
  · simp
  · simp only [if_true, Bool.not_true, Bool.and_false]
    rfl

/-- The active format is no entry into MX4. -/
theorem RoomRec.entersMx4_active (rm : RoomRec) : rm.entersMx4 rm.activeFormat = false := by
  show (decide (rm.entry.mode = .discrete) && decide (rm.entry.mode = .mx4)) = false
  cases rm.entry.mode <;> rfl

/-- What a filled format slot changes, field by field, and an empty one does not (R74). -/
theorem RoomRec.applyFormat_slot (rm : RoomRec) :
    rm.dip.fmtSlot.elim rm rm.applyFormat = { rm with
      activeFormat := rm.dip.fmtSlot.getD rm.activeFormat
      decode := if rm.entersMx4 (rm.dip.fmtSlot.getD rm.activeFormat) then .zero else rm.decode
      ahead := rm.ahead.map fun e => { e with
        decodeStands := e.decodeStands && !rm.entersMx4 (rm.dip.fmtSlot.getD rm.activeFormat) } } := by
  cases rm.dip.fmtSlot with
  | some i => exact rm.applyFormat_eq i
  | none => simp [RoomRec.entersMx4_active]

/-- What a room that leaves LIVE has when its dip has ended (R68). -/
theorem RoomRec.endDip_of_live {rm : RoomRec} (h : rm.path.state = .live) : rm.endDip = rm.leavingLive := by
  unfold RoomRec.endDip RoomRec.leavingLive
  by_cases hd : rm.dip.stage = .idle
  · simp [hd]
  · dsimp only
    rw [if_neg hd, if_neg (by simp [h, hd])]
    unfold RoomRec.applySlots
    dsimp only
    rw [RoomRec.applyFormat_slot]
    simp only [show ∀ i : Fin 4, (decide (rm.formats[rm.activeFormat].mode = .discrete) && decide (rm.formats[i].mode = .mx4)) =
      rm.entersMx4 i from fun _ => rfl]
    generalize rm.entersMx4 (rm.dip.fmtSlot.getD rm.activeFormat) = m
    rcases rm with ⟨_, _, _, _, _, _, _, _, _, _, ⟨_, _, _, fmt, src, bank, _⟩, _, _, _, _, _, _, _, _, _, _, _, _, _, _, _, _, _, _, _, ahead⟩
    cases src <;> cases bank <;> cases ahead <;>
      simp [RoomRec.applySource, RoomRec.applyBank, RoomRec.emptySlots, RoomRec.zeroHistory,
        RoomRec.requietSwap, RoomRec.activeMap, RoomRec.mapOf, Cond.requiet_eq, Dip.reset, Config.unity, Early.dropHistory]

end Sys2Proof.Machine
end

