-- ==== Sys2Proof/Laws/Moves.lean ====
section
/-! SUPPORT. What a command can do, said once: every command changes the part by a run of the moves listed here, each with the
guard under which the model makes it. An invariant follows from its being kept by each move. -/

namespace Sys2Proof.Machine

/-! ### The moves -/

/-- The second Management Unit has raised notices since the first, and nothing else of it differs (R205). -/
def Mgmt.Says : Mgmt → Mgmt → Prop := Relation.ReflTransGen fun m n => ∃ room b, n = m.raise room b

/-- The records agree in all that the invariants look at: of the path everything but its counts and marks, the gain, the dip,
the programme values, the last frame, the formats, the decode states, the banks, the commitment, the conditions, the cue lists
and the cursor; and a timer that was in order stays so. -/
structure RoomRec.SameCore (a b : RoomRec) : Prop where
  path : b.path = { a.path with
    lastRack := b.path.lastRack, seqCount := b.path.seqCount, nextAttempt := b.path.nextAttempt
    debounceHeld := b.path.debounceHeld, enteredInBlock := b.path.enteredInBlock, proofPos := b.path.proofPos
    rackTaken := b.path.rackTaken, pilotSent := b.path.pilotSent }
  gain : b.gain = a.gain
  dip : b.dip = a.dip
  prog : b.prog = a.prog
  last : b.tc.last = a.tc.last
  formats : b.formats = a.formats
  decode : b.decode = a.decode
  ahead : ∀ e, b.ahead = some e → e.decode = a.decode ∨ a.ahead = some e
  bankA : b.bankA = a.bankA
  bankB : b.bankB = a.bankB
  commitment : b.commitment = a.commitment
  conds : b.conds = a.conds
  rackCond : b.rackCond = a.rackCond
  list : b.list = a.list
  draft : b.draft = a.draft
  cursor : b.cursor = a.cursor
  timers : ∀ i : Fin 4, a.timers[i].ok → b.timers[i].ok

/-- Of the part outside the rooms, all that the invariants look at is the same; the Management Unit may have raised notices. -/
structure State.SamePart (s t : State) : Prop where
  law : t.law = s.law := by rfl
  committedTotal : t.committedTotal = s.committedTotal := by rfl
  alarms : t.alarms = s.alarms := by rfl
  inputs : t.inputs = s.inputs := by rfl
  blockPos : t.blockPos = s.blockPos := by rfl
  blockEndDue : t.blockEndDue = s.blockEndDue := by rfl
  blockEnded : t.blockEnded = s.blockEnded := by rfl
  periodOpen : t.periodOpen = s.periodOpen := by rfl
  holds : ∀ l : Lane, t.lanes[l].hold = s.lanes[l].hold := by exact fun _ => rfl
  supply : t.supply = s.supply := by rfl
  notReady : t.notReady = s.notReady := by rfl
  mgmt : s.mgmt.Says t.mgmt

/-- The decode state of a room after its chains: one step from the one that they use, unless that has been discarded (R70, R81). -/
def RoomRec.decodeAfter (rm : RoomRec) (p : Profile) : DecodeState :=
  match rm.ahead with
  | none => rm.decodeStep p
  | some e => if e.decodeStands then rm.asChained.decodeStep p else rm.decode

/-- The decode state of some rooms takes its step (R70). -/
def State.stepDecode (s : State) (which : Room → Bool) : State :=
  { s with rooms := Vector.ofFn fun r =>
      if which r then { s.room r with decode := (s.room r).decodeAfter (s.activeProfile (s.room r)) } else s.room r }

/-- One move of the part. -/
inductive Move : State → State → Prop where
  /-- Anything that the invariants do not look at. -/
  | quiet {s t : State} (part : s.SamePart t) (rooms : ∀ r, (s.room r).SameCore (t.room r)) : Move s t
  /-- The rack absence run, short of a loss (R9). -/
  | absence {s : State} (r : Room) (n : Nat) (h : n < 2400) :
      Move s (s.modRoom r fun rm => { rm with path := { rm.path with rackAbsence := n } })
  /-- The proof record, in PROVE (R18, R19). -/
  | record {s : State} (r : Room) (rec : Vector ProofEntry 16) (h : (s.room r).path.state = .prove) :
      Move s (s.modRoom r fun rm => { rm with path := { rm.path with record := rec } })
  /-- Every count takes its step as a sample period opens. -/
  | tick {s : State} (h : s.blockEndDue = false) : Move s s.tick
  /-- The supply warning is asserted: every cursor goes to base and every timer freezes (R171, R172). -/
  | asserted {s : State} : Move s ({ s with supply := true, supplyDue := false }.mapRooms fun rm =>
      { rm.cursorToBase with timers := Vector.ofFn fun i => rm.timers[i].freeze })
  /-- The supply warning is released (R173). -/
  | released {s : State} : Move s { s with supply := false }
  /-- Every cursor is placed against its last frame at the release (R173). -/
  | placed {s : State} (h : s.supply = false) : Move s (s.mapRooms RoomRec.placeCursor)
  /-- The Table Store becomes READY (R206). -/
  | storeReady {s : State} : Move s { s with store := .ready }
  /-- The engine restart ends (R208). -/
  | restartDone {s : State} : Move s { s with restart := none }
  /-- The lanes take their words (R31 to R36). -/
  | lanes {s : State} (ws : Vector Word 256) (later : List Room) : Move s (s.takeLanes ws later)
  /-- The programme channels take their values (R35). -/
  | values {s : State} (ws : Vector Word 256) (which : Room → Bool) : Move s (s.takeValues ws which)
  /-- The decode state of the rooms whose chains run takes its step (R53, R70). -/
  | chains {s : State} (which : Room → Bool) : Move s (s.stepDecode which)
  /-- The settling phase ends (R15). -/
  | settled {s : State} (r : Room) (h : (s.room r).path.phase = .settling) : Move s (s.settlingEnd r)
  /-- A path ramp begins in LIVE (R21, R22, R27). -/
  | ramp {s : State} (r : Room) (ph : Phase) (p1 len : Nat) (hs : (s.room r).path.state = .live)
      (h : ph = .rampingOutPark ∧ len = 480 ∨ ph = .rampingOutOff ∧ len = 480 ∨ ph = .supplyRamp ∧ len = 192)
      (h1 : p1 = 0) : Move s (s.modRoom r fun rm => { rm with path := rm.path.beginRamp ph p1 len })
  /-- The ramp-in ends (R25). -/
  | onAir {s : State} (r : Room) (h : (s.room r).path.phase = .rampingIn) (hd : (s.room r).path.rampDue = true) :
      Move s (s.modRoom r (RoomRec.toPlain .live))
  /-- The room enters PARKED (R24, R25). -/
  | park {s : State} (r : Room) (h : (s.room r).path.phase = .rampingIn ∨ (s.room r).path.phase = .rampingOutPark ∨
      (s.room r).path.phase = .supplyRamp) : Move s (s.transit r [] RoomRec.toParked)
  /-- The room enters OFF (R23). -/
  | off {s : State} (r : Room) : Move s (s.enterOff r)
  /-- The room is halted (R12). -/
  | halt {s : State} (r : Room) (h : (s.room r).path.state = .live ∨ (s.room r).path.state = .parked) :
      Move s (s.enterHalted r)
  /-- The room enters LISTEN from OFF or HALTED (R15). -/
  | listen {s : State} (r : Room) (h : (s.room r).path.state = .off ∨ (s.room r).path.state = .halted)
      (hc : s.cuesFire = true) :
      Move s (s.transit r [] RoomRec.toSettling)
  /-- A proof begins, or ends at once with an empty fitted set (R17). -/
  | prove {s : State} (r : Room) (own : List NoticeBody) (h : (s.room r).path.state = .ready) :
      Move s (s.transit r own RoomRec.toProve)
  /-- The room enters LIVE from READY (R20). -/
  | goLive {s : State} (r : Room) (h : (s.room r).path.state = .ready) (hp : (s.room r).path.proven = true) :
      Move s (s.transit r [] RoomRec.toLiveFresh)
  /-- The room enters LIVE from PARKED (R20). -/
  | relive {s : State} (r : Room) (h : (s.room r).path.state = .parked) : Move s (s.transit r [] RoomRec.toLive)
  /-- A proof is cancelled (R24, R27). -/
  | cancel {s : State} (r : Room) (h : (s.room r).path.state = .prove ∨ (s.room r).path.phase = .proving) :
      Move s (s.transit r [] RoomRec.toReadyCancelled)
  /-- A proof ends (R19). -/
  | proofEnd {s : State} (r : Room) (rec : Vector ProofEntry 16) (h : (s.room r).path.state = .prove) :
      Move s (s.endProof r rec)
  /-- A rack loss in READY or PROVE (R10, R11). -/
  | loss {s : State} (r : Room) (own : List NoticeBody)
      (h : (s.room r).path.state = .ready ∨ (s.room r).path.state = .prove) :
      Move s (s.transit r own RoomRec.toDebouncing)
  /-- A debounce run is complete (R16). -/
  | found {s : State} (r : Room) (h : (s.room r).path.state = .listen) (hp : (s.room r).path.phase = .debouncing) :
      Move s (s.debounceDone r)
  /-- SET_ROOM (R29). -/
  | setRoom {s : State} (r : Room) (fitted : BitVec 16) (lo hi : Nat) (pol : Policy)
      (h : (s.room r).path.state = .off ∨ (s.room r).path.state = .listen ∨ (s.room r).path.state = .ready) :
      Move s (s.modRoom r fun rm => rm.setRoom fitted lo hi pol)
  /-- A fade begins at once or over a length, or ends (R61 to R63). -/
  | gain {s : State} (r : Room) (g : Gain)
      (h : (∃ step ms, g = (s.room r).gain.set s.law step ms) ∨ (∃ yes, g = (s.room r).gain.setMute s.law yes) ∨
        g = (s.room r).gain.endFade) : Move s (s.modRoom r fun rm => { rm with gain := g })
  /-- A change is handed to the dip machine (R66, R68). -/
  | handOn {s : State} (r : Room) (c : DipChange) : Move s (s.handOn r c)
  /-- The bottom of a dip (R67). -/
  | bottom {s : State} (r : Room) (h : s.bottomDue r = true) : Move s (s.dipBottom r)
  /-- The end of an ascent (R67). -/
  | ascent {s : State} (r : Room) (h : s.ascentDue r = true) : Move s (s.ascentEnd r)
  /-- LOAD_FADER_LAW (R59). -/
  | law {s : State} (body : List Payload) : Move s (s.loadFaderLaw body).1
  /-- A load of a format entry or of a bank, within the budget (R110, R111). -/
  | load {s : State} (r : Room) (rm : RoomRec) (hb : s.overBudget r rm.charge = false)
      (h : (∃ i e, rm = (s.room r).writeEntry i e) ∨
        (∃ n c body first count, rm = (s.room r).setBank n (((s.room r).bank n).load c body first count)) ∨
        (∃ n, rm = (s.room r).setBank n .cleared) ∨
        ∃ n, rm = (s.room r).setBank n ((s.room r).bank (s.room r).bankInService)) : Move s (s.commitLoad r rm)
  /-- SET_TRIMS, which touches no tag (R95). -/
  | trims {s : State} (r : Room) (n : BankName) (trim : Chan → Nat) :
      Move s (s.modRoom r fun rm => rm.setBank n
        { (s.room r).bank n with chans := Vector.ofFn fun k => { ((s.room r).bank n).chans[k] with trim := trim k } })
  /-- A condition is raised (R131, R132). -/
  | raise {s : State} (r : Room) (x : CondId) (p n : Nat)
      (h : ((s.room r).cond x).phase = .quiet ∨ ((s.room r).cond x).phase = .pending)
      (hs : (s.room r).path.state ≠ .off) : Move s (s.raiseCond r x p n)
  /-- A condition is cleared (R133). -/
  | clear {s : State} (r : Room) (x : CondId) (h : ((s.room r).cond x).phase = .raised) : Move s (s.clearCond r x)
  /-- A judgement that neither raises nor clears (R125). -/
  | judged {s : State} (r : Room) (x : CondId) (truth : Bool)
      (h : ((s.room r).cond x).phase = .raised → truth = true) :
      Move s (s.modRoom r fun rm => rm.putCond x (((s.room r).cond x).move truth))
  /-- A condition is acknowledged (R136). -/
  | ack {s : State} (r : Room) (x : CondId) (n m : Nat) : Move s (State.ackOne r (s, n, m) x).1
  /-- SET_ALARM_ENTRY (R122). -/
  | alarmEntry {s : State} (r : Room) (set : BitVec 16) (a : AlarmCfg) :
      Move s (s.modRoom r fun rm => rm.writeAlarms set a)
  /-- CUE_DRAFT_CLEAR (R145). -/
  | draftClear {s : State} (r : Room) : Move s (s.modRoom r fun rm => { rm with draft := [] })
  /-- CUE_DRAFT_APPEND (R146). -/
  | draftAppend {s : State} (r : Room) (cues : List Cue)
      (ho : firstDisorder (lastNumber (s.room r).draft) 0 cues = none) (hn : ∀ c ∈ cues, ∃ w, Cue.ofWords w = some c)
      (hl : (s.room r).draft.length + cues.length ≤ 128) (hu : s.cueUsed + cues.length ≤ 512) :
      Move s (s.modRoom r fun rm => { rm with draft := rm.draft ++ cues })
  /-- CUE_COMMIT (R147). -/
  | commit {s : State} (r : Room) (h : frameDisorder 0 (s.room r).draft = none) (hs : s.supply = false) :
      Move s (s.modRoom r RoomRec.commitDraft)
  /-- CUE_REWIND (R155). -/
  | rewind {s : State} (r : Room) : Move s (s.modRoom r RoomRec.cursorToBase)
  /-- A room's timecode record moves: the last frame stays or rises, or the Cue Engine takes no action on it (R45, R46, R154). -/
  | timecode {s : State} (r : Room) (new : Timecode)
      (h : new.last = (s.room r).tc.last ∨ ∃ t, new.last = some t ∧
        ((∃ f, (s.room r).tc.last = some f ∧ f ≤ t) ∨ s.takesTimecode r = false)) :
      Move s (s.modRoom r fun rm => { rm with tc := new })
  /-- The cursor moves past the run of an advance (R151). -/
  | advance {s : State} (r : Room) (t : Nat) (h : (s.room r).tc.last = some t) (ht : s.takesTimecode r = true) :
      Move s (s.modRoom r fun rm => { rm with cursor := firstAtFrom (fun f => decide (t < f)) rm.cursor rm.list })
  /-- A jump places the cursor and moves it past the run (R152). -/
  | jump {s : State} (r : Room) (new : Timecode) (t : Nat) (h : new.last = some t) (ht : s.takesTimecode r = true) :
      Move s (s.modRoom r fun rm => { rm with
        tc := new
        cursor := firstAtFrom (fun f => decide (t < f)) (firstAt (fun f => decide (t ≤ f)) rm.list) rm.list })
  /-- A contact input, its change run short of 960 (R177, R180). -/
  | input {s : State} (i : Fin 16) (c : ContactIn) (h : c.run < 960 ∨ c.run = s.inputs[i].run) :
      Move s (s.modInput i fun _ => c)
  /-- A meter block ends and the next begins (R117, R118). -/
  | newBlock {s : State} (lanes : Vector LaneRec 256) (n : BitVec 32) (h : ∀ l : Lane, lanes[l].hold = s.lanes[l].hold) :
      Move s { s.mapRooms RoomRec.newBlock with lanes := lanes, blockNumber := n, blockPos := 0, blockEndDue := false }
  /-- The block end has been taken in the period in progress, which completes the block (R117). -/
  | ended {s : State} (ho : s.periodOpen = true) (h : s.blockPos = 0) : Move s { s with blockEnded := true }
  /-- An engine restart begins (R207). -/
  | restart {s : State} : Move s s.restartBegin

/-- A run of moves. -/
def Moves : State → State → Prop := Relation.ReflTransGen Move

theorem Moves.refl (s : State) : Moves s s := Relation.ReflTransGen.refl

theorem Moves.trans {s t u : State} (h : Moves s t) (h' : Moves t u) : Moves s u := Relation.ReflTransGen.trans h h'

theorem Move.moves {s t : State} (h : Move s t) : Moves s t := Relation.ReflTransGen.single h

theorem Moves.then {s t u : State} (h : Moves s t) (h' : Move t u) : Moves s u := h.trans h'.moves

/-- What every move keeps, a run of moves keeps. -/
theorem Moves.keeps {P : State → Prop} (hP : ∀ s t, Move s t → P s → P t) {s t : State} (h : Moves s t) (hs : P s) :
    P t := by
  induction h with
  | refl => exact hs
  | tail _ hm ih => exact hP _ _ hm ih

/-! ### Quiet moves -/

theorem Mgmt.Says.refl (m : Mgmt) : m.Says m := Relation.ReflTransGen.refl

theorem Mgmt.Says.raise (m : Mgmt) (room : Option (Room × Snapshot)) (b : NoticeBody) : m.Says (m.raise room b) :=
  Relation.ReflTransGen.single ⟨room, b, rfl⟩

theorem RoomRec.SameCore.refl (rm : RoomRec) : rm.SameCore rm :=
  ⟨rfl, rfl, rfl, rfl, rfl, rfl, rfl, fun _ => .inr, rfl, rfl, rfl, rfl, rfl, rfl, rfl, rfl, fun _ => id⟩

/-- The counts and marks of the path are nothing that the invariants look at. -/
theorem RoomRec.SameCore.ofPath {rm : RoomRec} {p : Path} (h : p = { rm.path with
      lastRack := p.lastRack, seqCount := p.seqCount, nextAttempt := p.nextAttempt
      debounceHeld := p.debounceHeld, enteredInBlock := p.enteredInBlock, proofPos := p.proofPos
      rackTaken := p.rackTaken, pilotSent := p.pilotSent }) :
    rm.SameCore { rm with path := p } :=
  ⟨h, rfl, rfl, rfl, rfl, rfl, rfl, fun _ => .inr, rfl, rfl, rfl, rfl, rfl, rfl, rfl, rfl, fun _ => id⟩

theorem Moves.notify (s : State) (r : Room) (b : NoticeBody) : Moves s (s.notify r b) :=
  (Move.quiet (s := s) (t := s.notify r b) { mgmt := Mgmt.Says.raise _ _ _ } fun _ => .refl _).moves

theorem Moves.notifyPart (s : State) (b : NoticeBody) : Moves s (s.notifyPart b) :=
  (Move.quiet (s := s) (t := s.notifyPart b) { mgmt := Mgmt.Says.raise _ _ _ } fun _ => .refl _).moves

/-- One room changes in what the invariants do not look at. -/
theorem Moves.room {s : State} {r : Room} {f : RoomRec → RoomRec} (h : (s.room r).SameCore (f (s.room r))) :
    Moves s (s.modRoom r f) := by
  refine (Move.quiet (s := s) (t := s.modRoom r f) { mgmt := .refl _ } fun q => ?_).moves
  by_cases e : q = r
  · subst e; rw [State.room_modRoom_self]; exact h
  · rw [State.room_modRoom_ne s f e]; exact .refl _

/-- What changes outside the rooms is nothing that the invariants look at. -/
theorem Moves.part {s t : State} (hr : t.rooms = s.rooms) (h : s.SamePart t) : Moves s t := by
  refine (Move.quiet h fun q => ?_).moves
  rw [show t.room q = s.room q by simp [State.room, hr]]; exact .refl _

theorem State.room_stepDecode (s : State) (which : Room → Bool) (r : Room) :
    (s.stepDecode which).room r =
      if which r then { s.room r with decode := (s.room r).decodeAfter (s.activeProfile (s.room r)) } else s.room r := by
  simp [State.stepDecode, State.room]

/-- The chains of some rooms run: their decode states take a step, and the rest is nothing that the invariants look at. -/
theorem Moves.chained {s t : State} (which : Room → Bool) (part : s.SamePart t)
    (h : ∀ r, ((s.stepDecode which).room r).SameCore (t.room r)) : Moves s t :=
  (Move.chains which).moves.then (.quiet ⟨part.law, part.committedTotal, part.alarms, part.inputs, part.blockPos,
    part.blockEndDue, part.blockEnded, part.periodOpen, part.holds, part.supply, part.notReady, part.mgmt⟩ h)

/-- The chains of a room change the history of the bank in service, the decode state, the meters and the demand (R53). -/
theorem RoomRec.runChains_eq (rm : RoomRec) (p : Profile) (counted : Bool) :
    ∃ a b m d, rm.runChains p counted = { rm with histA := a, histB := b, decode := rm.decodeStep p, meters := m, demand := d } := by
  unfold RoomRec.runChains RoomRec.setHist
  dsimp only
  cases rm.bankInService <;> exact ⟨_, _, _, _, rfl⟩

/-- Of what the invariants look at a period changes the decode state alone. -/
theorem RoomRec.sameCore_runPeriod (rm : RoomRec) (p : Profile) (counted : Bool) :
    RoomRec.SameCore (if rm.path.state.runs then { rm with decode := rm.decodeAfter p } else rm) (rm.runPeriod p counted) := by
  have ran (a b m d) (x : Option Early) (hx : x = rm.ahead ∨ x = none) (dc : DecodeState) : RoomRec.SameCore { rm with decode := dc }
      { rm with histA := a, histB := b, decode := dc, meters := m, demand := d, ahead := x } :=
    ⟨rfl, rfl, rfl, rfl, rfl, rfl, rfl, fun e h => .inr (hx.elim (fun k => k ▸ h) fun k => nomatch k ▸ h), rfl, rfl, rfl, rfl, rfl, rfl,
      rfl, rfl, fun _ => id⟩
  by_cases hr : rm.path.state.runs = true
  · rw [if_pos hr]
    rcases Option.eq_none_or_eq_some rm.ahead with ha | ⟨e, ha⟩
    · obtain ⟨a, b, m, d, h⟩ := rm.runChains_eq p counted
      rw [show rm.decodeAfter p = rm.decodeStep p by simp [RoomRec.decodeAfter, ha],
        show rm.runPeriod p counted = rm.runChains p counted by simp [RoomRec.runPeriod, hr, ha], h]
      exact ran a b m d rm.ahead (.inl rfl) _
    · obtain ⟨a, b, m, d, h⟩ := rm.asChained.runChains_eq p counted
      rw [show rm.decodeAfter p = if e.decodeStands then rm.asChained.decodeStep p else rm.decode by simp [RoomRec.decodeAfter, ha],
        show rm.runPeriod p counted = rm.runEarly e p counted by simp [RoomRec.runPeriod, hr, ha], RoomRec.runEarly, h]
      exact ran _ _ _ _ none (.inr rfl) _
  · rw [if_neg hr, RoomRec.runPeriod, if_neg hr]
    exact ran rm.histA rm.histB rm.meters _ none (.inr rfl) rm.decode

/-- Chains put ahead of events use the decode state as it stands. -/
theorem RoomRec.sameCore_putAhead (rm : RoomRec) : rm.SameCore rm.putAhead := by
  unfold RoomRec.putAhead
  split
  · exact ⟨rfl, rfl, rfl, rfl, rfl, rfl, rfl, fun e h => .inl (by cases h; rfl), rfl, rfl, rfl, rfl, rfl, rfl, rfl, rfl, fun _ => id⟩
  · exact .refl rm

/-- The meters of the rooms change. -/
theorem Moves.meters (s : State) (f : Room → Vector Meter 16) :
    Moves s { s with rooms := Vector.ofFn fun r => { s.room r with meters := f r } } := by
  refine (Move.quiet (s := s) (t := { s with rooms := Vector.ofFn fun r => { s.room r with meters := f r } })
    { mgmt := .refl _ } fun r => ?_).moves
  rw [show State.room { s with rooms := Vector.ofFn fun r => { s.room r with meters := f r } } r =
    { s.room r with meters := f r } by simp [State.room]]
  exact ⟨rfl, rfl, rfl, rfl, rfl, rfl, rfl, fun _ => .inr, rfl, rfl, rfl, rfl, rfl, rfl, rfl, rfl, fun _ => id⟩

/-! ### Taking many things in turn -/

theorem Moves.foldl {α : Type} (f : State → α → State) (h : ∀ s a, Moves s (f s a)) :
    ∀ (l : List α) (s : State), Moves s (l.foldl f s)
  | [], s => .refl s
  | a :: l, s => (h s a).trans (Moves.foldl f h l (f s a))

theorem Moves.forRooms (order : List Room) (f : Room → State → State) (h : ∀ r s, Moves s (f r s)) (s : State) :
    Moves s (forRooms order f s) :=
  Moves.foldl _ (fun s r => h r s) _ s

theorem Moves.force {due : State → Bool} {act : State → State} (h : ∀ s, due s = true → Moves s (act s)) (s : State) :
    Moves s (s.force due act) := by
  unfold State.force
  split
  · exact h s ‹_›
  · exact .refl s

end Sys2Proof.Machine
end

