-- ==== Sys2Proof/Laws/PathMoves.lean ====
section
/-! SUPPORT. The operations of the output path, go requests and the dip (01, 03) as runs of moves. -/

namespace Sys2Proof.Machine

/-! ### Rack words -/

/-- The room after its rack word is stored differs in the last rack word and its mark alone. -/
theorem State.storeRack_room (s : State) (r : Room) (w : RackWord) :
    (s.storeRack r w).room r = { s.room r with path := { (s.room r).path with lastRack := w, rackTaken := true } } := by
  unfold State.storeRack
  split <;> simp

theorem Moves.storeRack (s : State) (r : Room) (w : RackWord) : Moves s (s.storeRack r w) := by
  have h1 : Moves s (s.modRoom r fun rm => { rm with path := { rm.path with lastRack := w, rackTaken := true } }) :=
    Moves.room (.ofPath rfl)
  unfold State.storeRack
  split
  · exact h1.trans (.notify _ _ _)
  · exact h1

theorem Moves.rackLoss (s : State) (r : Room) : Moves s (s.rackLoss r) := by
  unfold State.rackLoss
  split
  · exact (Move.loss r _ (.inl ‹_›)).moves
  · exact (Move.loss r _ (.inr ‹_›)).moves
  · exact (Move.halt r (.inl ‹_›)).moves
  · exact (Move.halt r (.inr ‹_›)).moves
  all_goals exact .refl s

theorem Moves.observe (s : State) (r : Room) (present : Bool) : Moves s (s.observe r present) := by
  unfold State.observe
  split
  · exact .rackLoss s r
  · rename_i h
    have e : (s.modRoom r fun rm => { rm with path := rm.path.countAbsence present }) = s.modRoom r fun rm =>
        { rm with path := { rm.path with rackAbsence := if present then 0 else (s.room r).path.rackAbsence + 1 } } :=
      State.modRoom_congr _ _ _ _ rfl
    rw [e]
    refine (Move.absence r _ ?_).moves
    cases present
    · have h2 : (s.room r).path.rackAbsence < 2399 := by simpa [Path.completesLoss] using h
      simp only [Bool.false_eq_true, if_false]
      omega
    · simp

theorem Moves.debounce {s : State} {r : Room} (h : (s.room r).path.state = .listen)
    (hp : (s.room r).path.phase = .debouncing) (present : Bool) : Moves s (s.debounce r present) := by
  have quiet (f : Nat → Nat) : Moves s (s.modRoom r fun rm => { rm with path := { rm.path with seqCount := f rm.path.seqCount } }) :=
    Moves.room (.ofPath rfl)
  unfold State.debounce
  split
  · exact .refl s
  · split
    · exact quiet fun _ => 0
    · split
      · exact (Move.found r h hp).moves
      · exact quiet fun n => n + 1

/-- The attempt that follows is noted. -/
theorem Moves.nextAttempt (s : State) (r : Room) (pos : Option ProofPos) :
    Moves s (s.modRoom r fun rm => { rm with path := { rm.path with nextAttempt := pos } }) :=
  Moves.room (.ofPath rfl)

theorem Moves.channelDone {s : State} {r : Room} (h : (s.room r).path.state = .prove) (k : Chan) (res : ProofResult) :
    Moves s (s.channelDone r k res) := by
  unfold State.channelDone
  dsimp only
  split
  · exact (Move.proofEnd r _ h).moves
  · split
    · rename_i j hj
      refine ((Move.record r ((s.room r).path.modRecord k fun e => { e with result := res }).record h).moves.trans
        (Moves.nextAttempt _ r (some ⟨j, 1⟩))).trans (Eq.subst ?_ (Moves.refl _))
      rw [State.modRoom_modRoom]
      exact (State.modRoom_congr _ _ _ _ rfl)
    · exact (Move.proofEnd r _ h).moves

theorem Path.prove_of_running {p : Path} {pos : ProofPos} (h : p.attemptRunning = some pos) : p.state = .prove := by
  unfold Path.attemptRunning at h
  split at h
  · exact ‹_ ∧ _›.1
  · cases h

theorem Path.running_of_over {p : Path} {pos : ProofPos} (h : p.attemptOver = some pos) : p.attemptRunning = some pos := by
  unfold Path.attemptOver at h
  split at h
  · exact h
  · cases h

theorem Moves.attemptTimeout (s : State) (r : Room) : Moves s (s.attemptTimeout r) := by
  unfold State.attemptTimeout
  split
  · rename_i pos h
    have hp := Path.prove_of_running (Path.running_of_over h)
    unfold State.failAttempt
    split
    · exact .nextAttempt s r _
    · exact .channelDone hp _ _
  · exact .refl s

theorem Moves.judgeReturn (s : State) (r : Room) (w : RackWord) : Moves s (s.judgeReturn r w) := by
  unfold State.judgeReturn
  split
  · exact .refl s
  · rename_i pos h
    have hs : Moves s (s.modRoom r fun rm => { rm with path := rm.path.sendPilot pos.chan }) := Moves.room (.ofPath rfl)
    have hp : ((s.modRoom r fun rm => { rm with path := rm.path.sendPilot pos.chan }).room r).path.state = .prove := by
      rw [State.room_modRoom_self]; exact Path.prove_of_running h
    dsimp only
    split
    · exact hs.trans (.channelDone hp _ _)
    · exact hs.trans (.attemptTimeout _ r)

/-- A rack word moves the part by these moves, in every state and phase. -/
theorem Moves.takeRack (s : State) (r : Room) (w : RackWord) : Moves s (s.takeRack r w) := by
  have h := Moves.storeRack s r w
  have e : ((s.storeRack r w).room r).path = { (s.room r).path with lastRack := w, rackTaken := true } := by rw [State.storeRack_room]
  unfold State.takeRack
  dsimp only
  split
  · exact h
  · exact h
  · split
    · exact h.trans (.debounce (by rw [e]; assumption) (by rw [e]; assumption) _)
    · exact h
  · exact h.trans (.observe _ _ _)
  · exact h.trans (.observe _ _ _)
  · exact h.trans (.observe _ _ _)
  · split
    · exact h.trans (.rackLoss _ _)
    · exact (h.trans (.observe _ _ _)).trans (.judgeReturn _ _ _)

/-! ### Ends of ramps, the supply warning -/

theorem Moves.rampEnd {s : State} {r : Room} (h : (s.room r).path.rampDue = true) : Moves s (s.rampEnd r) := by
  unfold State.rampEnd
  split
  · exact (Move.onAir r ‹_› h).moves
  · exact (Move.park r (.inr (.inl ‹_›))).moves
  · exact (Move.park r (.inr (.inr ‹_›))).moves
  · exact (Move.off r).moves
  all_goals exact .refl s

theorem Moves.supplyRoom (r : Room) (s : State) : Moves s (State.supplyRoom r s) := by
  unfold State.supplyRoom
  split
  · exact (Move.ramp r .supplyRamp 0 192 ‹_› (.inr (.inr ⟨rfl, rfl⟩)) rfl).moves
  · exact (Move.cancel r (.inl ‹_›)).moves
  all_goals exact .refl s

/-! ### Go requests -/

theorem Moves.goListen {s : State} (r : Room) (hc : s.cuesFire = true) : Moves s (s.goListen r).1 := by
  unfold State.goListen
  split
  · exact (Move.listen r (.inl ‹_›) hc).moves
  · exact (Move.listen r (.inr ‹_›) hc).moves
  all_goals exact .refl s

theorem Moves.goProve (s : State) (r : Room) : Moves s (s.goProve r).1 := by
  unfold State.goProve
  split
  · split <;> exact (Move.prove r _ ‹_›).moves
  all_goals exact .refl s

theorem Moves.goLive (s : State) (r : Room) : Moves s (s.goLive r).1 := by
  unfold State.goLive
  split
  · split
    · exact (Move.goLive r ‹_› ‹_›).moves
    · exact .refl s
  · exact (Move.relive r ‹_›).moves
  · split <;> exact .refl s
  all_goals exact .refl s

theorem Moves.goPark (s : State) (r : Room) : Moves s (s.goPark r).1 := by
  unfold State.goPark
  split
  · split
    · exact (Move.ramp r .rampingOutPark 0 480 ‹_› (.inl ⟨rfl, rfl⟩) rfl).moves
    all_goals exact .refl s
  · exact .refl s

theorem Moves.goOff (s : State) (r : Room) : Moves s (s.goOff r).1 := by
  unfold State.goOff
  split
  · exact .refl s
  · split
    · exact .refl s
    · exact (Move.ramp r .rampingOutOff 0 480 ‹_› (.inr (.inl ⟨rfl, rfl⟩)) rfl).moves
  all_goals exact (Move.off r).moves

theorem Moves.goStop (s : State) (r : Room) : Moves s (s.goStop r).1 := by
  unfold State.goStop
  split
  · exact (Move.off r).moves
  · exact (Move.off r).moves
  · exact (Move.off r).moves
  · exact (Move.cancel r (.inr ‹_›)).moves
  · exact (Move.park r (.inl ‹_›)).moves
  · exact (Move.park r (.inr (.inl ‹_›))).moves
  all_goals exact .refl s

/-- A go request while the Table Store is READY and no restart runs. -/
theorem Moves.goJudge {s : State} (r : Room) (t : GoTarget) (hn : s.notReady = false) : Moves s (s.goJudge r t).1 := by
  unfold State.goJudge
  cases t <;> dsimp only
  · exact .goOff s r
  · split
    · exact .refl s
    · exact .goListen r (by simp_all [State.cuesFire])
  · split
    · exact .refl s
    · exact .goProve s r
  · split
    · exact .refl s
    · exact .goLive s r
  · split
    · exact .refl s
    · exact .goPark s r
  · exact .goStop s r

/-- A go request touches rooms, alarms and notices alone. -/
theorem State.onlyRooms_goJudge (s : State) (r : Room) (t : GoTarget) : s.onlyRooms (s.goJudge r t).1 := by
  cases t <;> simp only [State.goJudge, State.goOff, State.goListen, State.goProve, State.goLive, State.goPark, State.goStop]
  all_goals repeat' split
  all_goals first
    | exact State.onlyRooms_refl s
    | exact State.onlyRooms_transit _ _ _ _
    | exact State.onlyRooms_enterOff _ _
    | exact State.onlyRooms_modRoom s r _
    | rfl

/-! ### Gain and dips -/

theorem Moves.setGain (s : State) (r : Room) (step ms : Nat) : Moves s (s.setGain r step ms) := by
  have e : s.setGain r step ms = s.modRoom r fun rm => { rm with gain := (s.room r).gain.set s.law step ms } :=
    State.modRoom_congr _ _ _ _ rfl
  rw [e]
  exact (Move.gain r _ (.inl ⟨step, ms, rfl⟩)).moves

theorem Moves.setMute (s : State) (r : Room) (yes : Bool) : Moves s (s.setMute r yes) := by
  have e : s.setMute r yes = s.modRoom r fun rm => { rm with gain := (s.room r).gain.setMute s.law yes } :=
    State.modRoom_congr _ _ _ _ rfl
  rw [e]
  exact (Move.gain r _ (.inr (.inl ⟨yes, rfl⟩))).moves

theorem Moves.fadeEnd (s : State) (r : Room) : Moves s (s.fadeEnd r) := by
  have e : s.fadeEnd r = s.modRoom r fun rm => { rm with gain := (s.room r).gain.endFade } := State.modRoom_congr _ _ _ _ rfl
  rw [e]
  exact (Move.gain r _ (.inr (.inr rfl))).moves

theorem Moves.selectFormat (s : State) (r : Room) (i : Fin 4) : Moves s (s.selectFormat r i).1 := by
  unfold State.selectFormat
  dsimp only
  split
  · exact .refl s
  · exact (Move.handOn r _).moves

end Sys2Proof.Machine
end

