-- ==== Sys2Proof/Laws/CueMoves.lean ====
section
/-! SUPPORT. The cue engine, timecode, alarms and contacts (02, 07, 08, 09) as runs of moves. -/

namespace Sys2Proof.Machine

/-! ### Actions and firing -/

/-- A room changes in what the invariants do not look at: its maps, its histories, its meters, its mask. -/
theorem Moves.quietRoom (s : State) (r : Room) (f : RoomRec → RoomRec)
    (h : f (s.room r) = { s.room r with
      guard := (f (s.room r)).guard, main := (f (s.room r)).main, spare := (f (s.room r)).spare
      tc := (f (s.room r)).tc, histA := (f (s.room r)).histA, histB := (f (s.room r)).histB
      demand := (f (s.room r)).demand, meters := (f (s.room r)).meters
      lastEval := (f (s.room r)).lastEval, alarmTable := (f (s.room r)).alarmTable, mask := (f (s.room r)).mask })
    (hl : (f (s.room r)).tc.last = (s.room r).tc.last) : Moves s (s.modRoom r f) := by
  refine Moves.room ?_
  rw [h]
  exact ⟨rfl, rfl, rfl, rfl, hl, rfl, rfl, fun _ => .inr, rfl, rfl, rfl, rfl, rfl, rfl, rfl, rfl, fun _ => id⟩

theorem Moves.setMask (s : State) (r : Room) (m : Mask) : Moves s (s.setMask r m) :=
  .quietRoom s r (fun rm => { rm with mask := m }) rfl rfl

/-- A timer changes and stays in order. -/
theorem Moves.modTimer (s : State) (r : Room) (t : Fin 4) (f : Timer → Timer)
    (hf : (s.room r).timers[t].ok → (f (s.room r).timers[t]).ok) : Moves s (s.modRoom r fun rm => rm.modTimer t f) := by
  refine Moves.room ⟨rfl, rfl, rfl, rfl, rfl, rfl, rfl, fun _ => .inr, rfl, rfl, rfl, rfl, rfl, rfl, rfl, rfl, fun i => ?_⟩
  intro h
  show ((s.room r).timers.set t.val (f (s.room r).timers[t]) t.isLt)[i].ok
  by_cases e : t = i
  · subst e
    simpa using hf h
  · have e' : t.val ≠ i.val := fun h => e (Fin.ext h)
    simpa [Vector.getElem_set, e'] using h

theorem Timer.ok_start (unit : TimerUnit) (count : Nat) (rep : Bool) (target : Nat) :
    (Timer.start unit count rep target).ok := by
  unfold Timer.ok Timer.start Timer.full clamp TimerUnit.periods
  cases unit <;> simp

theorem Timer.ok_stop {t : Timer} (h : t.ok) : t.stop.ok := by
  obtain ⟨h1, h2, -⟩ := h
  exact ⟨h1, h2, by simp [Timer.stop], by simp [Timer.stop], by simp [Timer.stop], by simp [Timer.stop]⟩

theorem Timer.ok_next {t : Timer} (hr : t.running = true) (h : t.ok) : t.next.ok := by
  unfold Timer.next
  split
  · obtain ⟨h1, h2, -, -, -, -⟩ := h
    have hp : 0 < t.full := by
      unfold Timer.full TimerUnit.periods
      exact Nat.mul_pos (by omega) (by cases t.unit <;> simp)
    exact ⟨h1, h2, fun _ => hp, fun e => absurd (hr.symm.trans e) (by simp), by simp, Nat.le_refl _⟩
  · exact Timer.ok_stop h

theorem Timer.ok_freeze {t : Timer} (h : t.ok) : t.freeze.ok := by
  obtain ⟨h1, h2, h3, h4, -, h6⟩ := h
  exact ⟨h1, h2, h3, fun hr => ⟨(h4 hr).1, rfl⟩, by simp [Timer.freeze], h6⟩

theorem Timer.ok_advance {t : Timer} (h : t.ok) : t.advance.ok := by
  obtain ⟨h1, h2, h3, h4, h5, h6⟩ := h
  unfold Timer.advance
  split
  · exact ⟨h1, h2, h3, h4, h5, h6⟩
  · rename_i hr
    have hr' : t.running = true := by simpa using hr
    have := h3 hr'
    split
    · exact ⟨h1, h2, h3, fun e => absurd e hr, fun _ => by show t.remaining = 1; omega, h6⟩
    · refine ⟨h1, h2, fun _ => by show 0 < t.remaining - 1; omega, fun e => absurd e hr, fun e => ?_, ?_⟩
      · have := h5 e; omega
      · show t.remaining - 1 ≤ t.full; omega

/-! ### Actions keep the condition under which cues fire -/

theorem State.cuesFire_perform (s : State) (r : Room) (number : Nat) (a : Action) :
    (s.perform r number a).1.cuesFire = s.cuesFire := by
  cases a with
  | setFormat i =>
    simp only [State.perform, State.selectFormat]
    split
    · rfl
    · exact State.onlyRooms_cuesFire (State.onlyRooms_handOn _ _ _)
  | setSource m => exact State.onlyRooms_cuesFire (State.onlyRooms_handOn _ _ _)
  | selectBank n => exact State.onlyRooms_cuesFire (State.onlyRooms_handOn _ _ _)
  | go t => exact State.onlyRooms_cuesFire (State.onlyRooms_goJudge _ _ _)
  | fade step ms => rfl
  | mute yes => rfl
  | mask kinds blocks => rfl
  | contact o on => simp only [State.perform]; split <;> rfl
  | timerStart t unit count rep target => simp only [State.perform]; split <;> rfl
  | timerStop t => simp only [State.perform]; split <;> rfl

theorem fireSteps_cuesFire (r : Room) (number : Nat) : ∀ (l : List (Nat × Action)) (f : Fired),
    (l.foldl (fireStep r number) f).st.cuesFire = f.st.cuesFire
  | [], _ => rfl
  | a :: l, f => (fireSteps_cuesFire r number l (fireStep r number f a)).trans (State.cuesFire_perform _ _ _ _)

theorem State.cuesFire_fire (s : State) (r : Room) (c : Cue) (why : Cause) :
    (s.fire r c why).st.cuesFire = s.cuesFire := by
  have h := fireSteps_cuesFire r c.number c.numbered ⟨s.notify r (.cueFired c.number c.trigger why), []⟩
  unfold State.fire
  dsimp only
  split
  · exact h
  · exact h

theorem State.cuesFire_fireAll (r : Room) : ∀ (l : List (Cue × Cause)) (s : State), (s.fireAll r l).cuesFire = s.cuesFire
  | [], _ => rfl
  | x :: l, s => (State.cuesFire_fireAll r l _).trans (State.cuesFire_fire s r x.1 x.2)

/-! ### Firing -/

theorem Moves.perform {s : State} (hc : s.cuesFire = true) (r : Room) (number : Nat) (a : Action) :
    Moves s (s.perform r number a).1 := by
  cases a with
  | setFormat i => exact .selectFormat s r i
  | setSource m => exact (Move.handOn r _).moves
  | selectBank n => exact (Move.handOn r _).moves
  | fade step ms => exact .setGain s r _ _
  | mute yes => exact .setMute s r _
  | mask kinds blocks => exact .setMask s r _
  | contact o on =>
    dsimp only [State.perform]
    split
    · exact Moves.part rfl { mgmt := .refl _ }
    · exact .refl s
  | go t => exact .goJudge r t (by unfold State.cuesFire at hc; simp_all)
  | timerStart t unit count rep target =>
    dsimp only [State.perform]
    split
    · exact .modTimer s r _ _ fun _ => Timer.ok_start _ _ _ _
    · exact .refl s
  | timerStop t =>
    dsimp only [State.perform]
    split
    · exact .modTimer s r _ _ Timer.ok_stop
    · exact .refl s

theorem Moves.fireSteps (r : Room) (number : Nat) : ∀ (l : List (Nat × Action)) (f : Fired), f.st.cuesFire = true →
    Moves f.st (l.foldl (fireStep r number) f).st
  | [], f, _ => .refl f.st
  | a :: l, f, hc => (Moves.perform hc r number a.2).trans
    (Moves.fireSteps r number l (fireStep r number f a) ((State.cuesFire_perform _ _ _ _).trans hc))

theorem Moves.fire {s : State} (hc : s.cuesFire = true) (r : Room) (c : Cue) (why : Cause) :
    Moves s (s.fire r c why).st := by
  have h := (Moves.notify s r (.cueFired c.number c.trigger why)).trans
    (Moves.fireSteps r c.number c.numbered ⟨s.notify r (.cueFired c.number c.trigger why), []⟩ hc)
  unfold State.fire
  dsimp only
  split
  · exact h
  · exact h.trans (.notify _ _ _)

theorem Moves.fireAll (r : Room) : ∀ (l : List (Cue × Cause)) {s : State}, s.cuesFire = true → Moves s (s.fireAll r l)
  | [], s, _ => .refl s
  | x :: l, s, hc => (Moves.fire hc r x.1 x.2).trans (Moves.fireAll r l ((State.cuesFire_fire s r x.1 x.2).trans hc))

theorem Moves.fireRun (r : Room) (why : Cause) : ∀ (l : List Cue) {s : State}, s.cuesFire = true →
    Moves s (s.fireRun r why l)
  | [], s, _ => .refl s
  | c :: cs, s, hc => by
    unfold State.fireRun
    dsimp only
    split
    · exact .fire hc r c why
    · exact (Moves.fire hc r c why).trans (Moves.fireRun r why cs ((State.cuesFire_fire s r c why).trans hc))

/-! ### Timecode -/

theorem State.takesTimecode_cuesFire {s : State} {r : Room} (h : s.takesTimecode r = true) : s.cuesFire = true := by
  unfold State.takesTimecode at h
  simp_all

/-- A change of a room that its snapshot does not show commutes with a notice of the room. -/
theorem State.notify_modRoom (s : State) (r : Room) (b : NoticeBody) (f : RoomRec → RoomRec)
    (h : (f (s.room r)).snapshot = (s.room r).snapshot) : (s.notify r b).modRoom r f = (s.modRoom r f).notify r b := by
  have e : ((s.modRoom r f).room r).snapshot = (s.room r).snapshot := by rw [State.room_modRoom_self, h]
  unfold State.notify
  rw [e]
  rfl

/-- The timecode record moves, with or without its notice. -/
theorem State.moveTimecode_cases (s : State) (r : Room) (new : Timecode) (jump : Bool) :
    s.moveTimecode r new jump = (s.modRoom r fun rm => { rm with tc := new }) ∨
      ∃ b, s.moveTimecode r new jump = (s.modRoom r fun rm => { rm with tc := new }).notify r b := by
  unfold State.moveTimecode
  dsimp only
  split
  · exact .inr ⟨_, rfl⟩
  · exact .inl rfl

theorem Moves.moveTimecode {s : State} {r : Room} {new : Timecode} (jump : Bool)
    (h : new.last = (s.room r).tc.last ∨ ∃ t, new.last = some t ∧
        ((∃ f, (s.room r).tc.last = some f ∧ f ≤ t) ∨ s.takesTimecode r = false)) :
    Moves s (s.moveTimecode r new jump) := by
  rcases s.moveTimecode_cases r new jump with e | ⟨b, e⟩ <;> rw [e]
  · exact (Move.timecode r new h).moves
  · exact (Move.timecode r new h).moves.trans (.notify _ _ _)

/-- The record's move leaves alone what the Cue Engine asks before it acts. -/
theorem State.takesTimecode_moveTimecode (s : State) (r : Room) (new : Timecode) (jump : Bool) :
    (s.moveTimecode r new jump).takesTimecode r = s.takesTimecode r ∧
      ((s.moveTimecode r new jump).room r).tc = new := by
  rcases s.moveTimecode_cases r new jump with e | ⟨b, e⟩ <;> rw [e] <;>
    simp [State.takesTimecode, State.cuesFire, State.notReady]

theorem Moves.advanceTo {s : State} {r : Room} {t : Nat} (h : (s.room r).tc.last = some t) : Moves s (s.advanceTo r t) := by
  unfold State.advanceTo
  split
  · rename_i ht
    have hc := State.takesTimecode_cuesFire ht
    unfold State.runTo
    exact (Move.advance r t h ht).moves.trans (.fireRun r _ _ hc)
  · exact .refl s

/-- A jump that the Cue Engine takes: the record and the cursor move, and the run fires. -/
theorem Moves.jump {s : State} {r : Room} {new : Timecode} {t : Nat} (h : new.last = some t)
    (ht : s.takesTimecode r = true) : Moves s ((s.moveTimecode r new true).jumpTo r t) := by
  have hc := State.takesTimecode_cuesFire ht
  have hm := Move.jump r new t h ht
  have ht' := (s.takesTimecode_moveTimecode r new true).1.trans ht
  unfold State.jumpTo
  rw [if_pos ht']
  unfold State.runTo
  dsimp only
  rw [State.modRoom_modRoom]
  rcases s.moveTimecode_cases r new true with e | ⟨b, e⟩ <;> rw [e]
  · rw [State.modRoom_modRoom]
    exact hm.moves.trans (.fireRun r _ _ hc)
  · rw [State.notify_modRoom _ _ _ _ rfl, State.modRoom_modRoom]
    exact (hm.moves.trans (.notify _ _ _)).trans (.fireRun r _ _ hc)

theorem Timecode.last_held (tc : Timecode) : tc.held.last = tc.last := by
  unfold Timecode.held; split <;> rfl

theorem Timecode.last_missed (tc : Timecode) : tc.missed.last = tc.last := by
  unfold Timecode.missed
  split
  · rfl
  · rfl
  · split <;> rfl
  · split <;> rfl

/-- An advance is to a frame above the last. -/
theorem advance_of_classify {last : Option Nat} {t u : Nat} (h : classify last t = .advance u) :
    u = t ∧ ∃ f, last = some f ∧ f ≤ t := by
  unfold classify at h
  split at h
  · cases h
  · split at h
    · cases h
    · split at h
      · cases h; exact ⟨rfl, _, rfl, by omega⟩
      · cases h

theorem jump_of_classify {last : Option Nat} {t u : Nat} (h : classify last t = .jump u) : u = t := by
  unfold classify at h
  split at h
  · cases h; rfl
  · split at h
    · cases h
    · split at h
      · cases h
      · cases h; rfl

theorem Moves.takeTimecode (s : State) (r : Room) (v : Option Nat) : Moves s (s.takeTimecode r v) := by
  unfold State.takeTimecode
  dsimp only
  split
  · exact .refl s
  · split
    · exact .moveTimecode _ (.inl (Timecode.last_missed _))
    · rename_i t
      split
      · rename_i u hu
        obtain ⟨rfl, hf⟩ := advance_of_classify hu
        rw [hu]
        refine (Moves.moveTimecode _ (.inr ⟨u, ?_, .inl hf⟩)).trans (.advanceTo ?_)
        · rfl
        · rw [(s.takesTimecode_moveTimecode r _ _).2]
          rfl
      · rename_i u hu
        obtain rfl := jump_of_classify hu
        rw [hu]
        cases ht : s.takesTimecode r
        · refine (Moves.moveTimecode (new := (s.room r).tc.on (.jump u)) true (.inr ⟨u, rfl, .inr ht⟩)).trans ?_
          show Moves _ (State.jumpTo _ r u)
          unfold State.jumpTo
          rw [(s.takesTimecode_moveTimecode r _ _).1, ht]
          exact .refl _
        · exact .jump rfl ht
      · rename_i hu
        rw [hu]
        exact .moveTimecode _ (.inl (Timecode.last_held _))

theorem Moves.takeOfPeriod (s : State) (r : Room) (v : Option Nat) : Moves s (s.takeOfPeriod r v) :=
  (Moves.takeTimecode s r v).trans
    (.quietRoom (s.takeTimecode r v) r (fun rm => { rm with tc := { rm.tc with taken := true } }) rfl rfl)

theorem Moves.takeOnce (s : State) (r : Room) (v : Option Nat) : Moves s (s.takeOnce r v) := by
  unfold State.takeOnce
  split
  · exact .refl s
  · exact .takeOfPeriod _ _ _

/-- Reading a lane's word later counts its concealment and changes nothing else. -/
@[simp] theorem LaneRec.hold_readLater (rec : LaneRec) (w : Word) : (rec.readLater w).hold = rec.hold := by
  unfold LaneRec.readLater
  split <;> rfl

/-- Lanes that keep their hold values, and the rooms that wait, are nothing that the invariants look at. -/
theorem Moves.setLanes (s : State) (l : List Room) (lanes : Vector LaneRec 256) (h : ∀ i : Lane, lanes[i].hold = s.lanes[i].hold) :
    Moves s { s with waiting := l, lanes := lanes } :=
  Moves.part rfl { mgmt := .refl _, holds := h }

theorem Moves.setWaiting (s : State) (l : List Room) (ws : Vector Word 256) : Moves s { s with waiting := l, words := ws } :=
  Moves.part rfl { mgmt := .refl _ }

/-- A room that waits reads its words: its lanes count, its channels take their values and it takes its timecode. -/
theorem Moves.readWords (s : State) (r : Room) : Moves s (s.readWords r) := by
  unfold State.readWords
  split
  · refine ((Moves.setLanes s _ _ fun l => ?_).then (.values _ _)).trans (.takeOnce _ r _)
    rw [Fin.getElem_fin, Vector.getElem_ofFn]
    split
    · exact LaneRec.hold_readLater _ _
    · rfl
  · exact .refl s

theorem Moves.readAll (s : State) (rooms : List Room) : Moves s (s.readAll rooms) :=
  .foldl _ (fun s r => .readWords s r) _ _

theorem Moves.takeWaiting (s : State) : Moves s s.takeWaiting := .readAll s _

theorem Moves.takeRow (s : State) (r : Room) (v : Option Nat) : Moves s (s.takeRow r v) := by
  unfold State.takeRow
  split
  · exact .readWords s r
  · exact .takeOfPeriod s r v

/-- The lanes and the values of a frame, then every room's timecode. -/
theorem Moves.intake (s : State) (ws : Vector Word 256) (order : FrameOrder) : Moves s (s.intake ws order) := by
  have h := (Moves.takeWaiting s).trans ((Move.lanes ws order.later).moves.then (Move.values ws fun r => decide (r ∉ order.later)))
  unfold State.intake
  refine (h.trans (.setWaiting _ _ _)).trans (Moves.forRooms order.rooms _ (fun r s => ?_) _)
  split
  · exact .refl s
  · exact .takeOnce s r _

/-! ### Hand-overs, edges and timers -/

theorem Moves.takeHandover (s : State) (h : Handover) : Moves s (s.takeHandover h) := by
  have fold : ∀ (l : List CondId) {s : State}, s.cuesFire = true → Moves s (l.foldl (fun s x => s.fireAll h.room
      (((s.room h.room).list.filter (·.matchesAlarm x)).map fun c => (c, .alarm x))) s) := by
    intro l
    induction l with
    | nil => exact fun _ => .refl _
    | cons x l ih => exact fun hc => (Moves.fireAll h.room _ hc).trans (ih ((State.cuesFire_fireAll h.room _ _).trans hc))
  unfold State.takeHandover
  split
  · exact fold h.conds ‹_›
  · exact .refl s

theorem Moves.setHandovers (s : State) (l : List Handover) : Moves s { s with handovers := l } :=
  Moves.part rfl { mgmt := .refl _ }

theorem Moves.nextHandover (s : State) (r : Room) : Moves s (s.nextHandover r) := by
  unfold State.nextHandover
  split
  · exact (Moves.setHandovers s _).trans (.takeHandover _ _)
  · exact .refl s

theorem Moves.allHandovers (s : State) : Moves s s.allHandovers :=
  Moves.foldl (fun u (h : Handover) => u.nextHandover h.room) (fun u h => Moves.nextHandover u h.room) s.handovers s

theorem Moves.takeEdge (s : State) (r : Room) (i : Fin 16) (e : Edge) : Moves s (s.takeEdge r i e) := by
  unfold State.takeEdge
  split
  · exact .fireAll r _ ‹_›
  · exact .refl s

theorem Moves.expire {s : State} {r : Room} {t : Fin 4} (h : s.timerDue r t = true) : Moves s (s.expire r t) := by
  have stop : Moves s (s.timerStop r t) := .modTimer s r t _ Timer.ok_stop
  have hd : s.cuesFire = true ∧ (s.room r).timers[t].running = true := by
    simp only [State.timerDue, Timer.due, Bool.and_eq_true] at h
    exact ⟨h.1, h.2.1⟩
  unfold State.expire
  dsimp only
  split
  · exact stop
  · split
    · exact (Moves.modTimer s r t _ (Timer.ok_next hd.2)).trans
        (Moves.fire (s := s.modRoom r fun rm => rm.modTimer t Timer.next) hd.1 _ _ _)
    · exact stop.trans (.notify _ _ _)

/-! ### Contact inputs -/

theorem Moves.announceEdge (s : State) (i : Fin 16) (e : Edge) : Moves s (s.announceEdge i e) := by
  unfold State.announceEdge
  dsimp only
  split
  · exact .notify _ _ _
  · exact .notifyPart _ _

/-- An input changes, with a change run of 0 or as it was. -/
theorem Moves.input (s : State) (i : Fin 16) (f : ContactIn → ContactIn)
    (h : (f s.inputs[i]).run < 960 ∨ (f s.inputs[i]).run = s.inputs[i].run) : Moves s (s.modInput i f) :=
  (Move.input (s := s) i (f s.inputs[i]) h).moves

theorem Moves.edge (s : State) (i : Fin 16) : Moves s (s.edge i) := by
  have h := (Moves.input s i ContactIn.flip (.inl (by simp [ContactIn.flip]))).trans
    (Moves.announceEdge (s.modInput i ContactIn.flip) i (edgeTo (!s.inputs[i].stable)))
  unfold State.edge
  dsimp only
  split
  · exact h.trans (.takeEdge _ _ _ _)
  · exact h

theorem Moves.takeContactEdge (s : State) (i : Fin 16) : Moves s (s.takeContactEdge i) :=
  (Moves.edge s i).trans (.input _ i _ (.inr rfl))

theorem Moves.sample (lines : BitVec 16) (s : State) (i : Fin 16) : Moves s (State.sample lines s i) := by
  unfold State.sample
  dsimp only
  split
  · exact .input _ _ _ (.inr rfl)
  · split
    · exact .input _ _ _ (.inl (by simp))
    · split
      · exact .edge s i
      · rename_i h
        refine .input _ _ _ (.inl ?_)
        simp only [ContactIn.completes, decide_eq_true_eq, not_and_or, not_not] at h
        unfold ContactIn.take
        split
        · simp
        · rename_i hl
          rcases h with h | h
          · exact absurd h hl
          · have h2 : s.inputs[i].run < 959 := by simpa using h
            show s.inputs[i].run + 1 < 960
            omega

theorem Moves.setFresh (s : State) (fresh : Bool) : Moves s { s with inputsFresh := fresh } :=
  Moves.part rfl { mgmt := .refl _ }

theorem Moves.sampleLines (s : State) (lines : BitVec 16) : Moves s (s.sampleLines lines) := by
  unfold State.sampleLines
  have h := Moves.foldl (State.sample lines) (fun s i => Moves.sample lines s i) (List.finRange 16) s
  generalize (List.finRange 16).foldl (State.sample lines) s = t at h ⊢
  exact h.trans (.setFresh t false)

/-! ### Meter blocks and alarms -/

theorem Moves.capture (s : State) (r : Room) : Moves s (s.capture r) := by
  unfold State.capture
  exact .quietRoom s r _ rfl rfl

@[simp] theorem RoomRec.putCond_path (rm : RoomRec) (x : CondId) (v : Cond) : (rm.putCond x v).path = rm.path := by
  cases x <;> rfl

@[simp] theorem RoomRec.putCond_alarmTable (rm : RoomRec) (x : CondId) (v : Cond) :
    (rm.putCond x v).alarmTable = rm.alarmTable := by cases x <;> rfl

/-- A judgement changes no path. -/
@[simp] theorem State.judge_path (r : Room) (x : CondId) (truth : Bool) (hold p n : Nat) (acc : State × List CondId) :
    ((State.judge r x truth hold p n acc).1.room r).path = (acc.1.room r).path := by
  unfold State.judge
  dsimp only
  split
  · unfold State.raiseCond
    dsimp only
    split <;> simp <;> rfl
  · split
    · unfold State.clearCond
      simp
      rfl
    · simp

/-- A judgement raises, clears or moves the condition; a condition that is true is one of a room outside OFF. -/
theorem Moves.judge (r : Room) (x : CondId) (truth : Bool) (hold p n : Nat) (acc : State × List CondId)
    (ht : truth = true → (acc.1.room r).path.state ≠ .off) : Moves acc.1 (State.judge r x truth hold p n acc).1 := by
  unfold State.judge
  dsimp only
  split
  · rename_i h
    refine (Move.raise r x p n ?_ (ht ?_)).moves <;> unfold Cond.raises at h
    · cases hp : ((acc.1.room r).cond x).phase <;> simp_all
    · simp_all
  · split
    · rename_i h
      exact (Move.clear r x h.1).moves
    · rename_i h
      refine (Move.judged r x truth fun hr => ?_).moves
      cases truth
      · exact absurd ⟨hr, rfl⟩ h
      · rfl

theorem State.judgeLevel_path (r : Room) (acc : State × List CondId) (x : Chan × LevelKind) :
    ((State.judgeLevel r acc x).1.room r).path = (acc.1.room r).path := by
  unfold State.judgeLevel
  dsimp only
  split
  · rfl
  · simp

theorem Moves.judgeLevel (r : Room) (acc : State × List CondId) (x : Chan × LevelKind)
    (h : (acc.1.room r).path.state ≠ .off) : Moves acc.1 (State.judgeLevel r acc x).1 := by
  unfold State.judgeLevel
  dsimp only
  split
  · exact .refl _
  · exact .judge _ _ _ _ _ _ _ fun _ => h

theorem Moves.judgeLevels (r : Room) : ∀ (l : List (Chan × LevelKind)) (acc : State × List CondId),
    (acc.1.room r).path.state ≠ .off → Moves acc.1 (l.foldl (State.judgeLevel r) acc).1
  | [], acc, _ => .refl acc.1
  | x :: l, acc, h => (Moves.judgeLevel r acc x h).trans
    (Moves.judgeLevels r l _ (by rw [State.judgeLevel_path]; exact h))

theorem Moves.evaluate (r : Room) (s : State) : Moves s (State.evaluate r s) := by
  have hand : ∀ (t : State) (l : List CondId),
      Moves t (if l = [] then t else { t with handovers := t.handovers ++ [⟨r, l⟩] }) := by
    intro t l
    split
    · exact .refl t
    · exact .setHandovers t _
  have rack : ∀ rm : RoomRec, rm.rackTrue = true → rm.path.state ≠ .off := by
    intro rm h e
    simp [RoomRec.rackTrue, e] at h
  unfold State.evaluate
  dsimp only
  cases he : (s.room r).evaluated
  · exact (Moves.judge r .rack _ 1 0 0 (s, []) (rack _)).trans (hand _ _)
  · have ho : (s.room r).path.state ≠ .off := by
      intro e
      simp [RoomRec.evaluated, RoomState.runs, e] at he
    have h1 := (Moves.capture s r).trans (Moves.judgeLevels r levelConds (s.capture r, [])
      (by simpa [State.capture] using ho))
    simp only [if_true]
    generalize levelConds.foldl (State.judgeLevel r) (s.capture r, []) = acc at h1 ⊢
    have h2 := Moves.judge r .rack (acc.1.room r).rackTrue 1 0 0 acc (rack _)
    generalize State.judge r .rack (acc.1.room r).rackTrue 1 0 0 acc = out at h2 ⊢
    exact (h1.trans h2).trans
      ((Moves.quietRoom out.1 r (fun rm => { rm with mask := rm.mask.countDown }) rfl rfl).trans (hand _ _))

theorem Moves.blockEnd (s : State) (order : List Room) : Moves s (s.blockEnd order) := by
  have h := Moves.forRooms order State.evaluate (fun r s => Moves.evaluate r s) s
  delta State.blockEnd
  dsimp only
  exact h.trans (Move.newBlock _ _ fun l => by simp).moves

/-- The conditions that an acknowledgement names, one after another. -/
theorem Moves.acks (r : Room) : ∀ (l : List CondId) (acc : State × Nat × Nat),
    Moves acc.1 (l.foldl (State.ackOne r) acc).1
  | [], acc => .refl acc.1
  | x :: l, acc => (Move.ack r x acc.2.1 acc.2.2).moves.trans (Moves.acks r l _)

end Sys2Proof.Machine
end

