-- ==== Sys2Proof/Laws/CommandMoves.lean ====
section
/-! SUPPORT. The sample period, the requests and every command as runs of moves, and what a command may do beside. -/

namespace Sys2Proof.Machine

/-! ### The moves keep two facts that the period needs -/

theorem Mgmt.Says.queue {m n : Mgmt} (h : m.Says n) :
    n.queue = m.queue ∧ n.holder = m.holder ∧ n.sending = m.sending ∧ n.asm = m.asm ∧ n.malformed = m.malformed ∧
      n.overflow = m.overflow := by
  induction h with
  | refl => exact ⟨rfl, rfl, rfl, rfl, rfl, rfl⟩
  | tail _ h ih =>
    obtain ⟨room, b, rfl⟩ := h
    simpa using ih

/-- Notices leave the notice queue and its drop count within their bounds (R205). -/
theorem Mgmt.Says.bounds {m n : Mgmt} (h : m.Says n) (h1 : m.notices.length ≤ 32) (h2 : m.dropCount ≤ 255) :
    n.notices.length ≤ 32 ∧ n.dropCount ≤ 255 := by
  induction h with
  | refl => exact ⟨h1, h2⟩
  | tail _ h ih =>
    obtain ⟨room, b, rfl⟩ := h
    rename_i k _
    by_cases hl : k.notices.length < 32
    · rw [Mgmt.raise_of_lt _ _ _ hl]; simp; omega
    · rw [Mgmt.raise_of_full _ _ _ (by omega)]; simp; omega

/-- A change of a room's state raises notices and does nothing else to the Management Unit. -/
theorem State.says_transit (s : State) (r : Room) (own : List NoticeBody) (f : RoomRec → RoomRec) :
    s.mgmt.Says (s.transit r own f).mgmt := by
  have one (u : State) (b : NoticeBody) : u.mgmt.Says (u.notify r b).mgmt := .raise _ _ _
  have fold : ∀ (l : List NoticeBody) (u : State), u.mgmt.Says (l.foldl (fun t b => t.notify r b) u).mgmt := by
    intro l
    induction l with
    | nil => exact fun u => .refl _
    | cons b l ih => exact fun u => Relation.ReflTransGen.trans (one u b) (ih _)
  have cond (c : Prop) [Decidable c] (u : State) (b : NoticeBody) : u.mgmt.Says (if c then u.notify r b else u).mgmt := by
    split
    · exact one u b
    · exact .refl _
  have h := Relation.ReflTransGen.trans
    (cond ((s.room r).path.state ≠ ((s.room r).afterTransit f).path.state)
      (s.modRoom r fun _ => (s.room r).afterTransit f) (.roomState (s.room r).path.state)) (fold own _)
  unfold RoomRec.afterTransit at h
  unfold State.transit
  dsimp only
  split
  · exact Relation.ReflTransGen.trans h (one _ _)
  · exact h

/-- Of the Management Unit a move changes nothing but what raising notices changes. -/
theorem Move.says {s t : State} (h : Move s t) : s.mgmt.Says t.mgmt := by
  cases h with
  | quiet part _ => exact part.mgmt
  | law body => unfold State.loadFaderLaw; dsimp only; split <;> exact .refl _
  | park | listen | prove | goLive | relive | cancel | loss | found => exact State.says_transit _ _ _ _
  | proofEnd r rec _ => unfold State.endProof; exact State.says_transit _ _ _ _
  | off r => exact State.says_transit s r [] RoomRec.toOff
  | halt r _ => exact State.says_transit s r [] RoomRec.toHalted
  | handOn r c =>
    unfold State.handOn
    dsimp only
    split
    · exact .refl _
    · split
      · exact .refl _
      · split
        · exact .raise _ _ _
        · exact .refl _
  | bottom r _ =>
    unfold State.dipBottom
    dsimp only
    split
    · exact .raise _ _ _
    · exact .refl _
  | raise r x p n _ _ =>
    unfold State.raiseCond
    dsimp only
    split
    · exact Relation.ReflTransGen.trans (Mgmt.Says.raise _ _ _) (Mgmt.Says.raise _ _ _)
    · exact .raise _ _ _
  | clear r x _ => exact .raise _ _ _
  | ack r x n m => unfold State.ackOne; dsimp only; split <;> exact .refl _
  | tick | newBlock | restart | load | input | absence | record | settled | ramp | onAir | setRoom | gain | ascent | trims
  | judged | alarmEntry | draftClear | draftAppend | commit | asserted | released | placed | storeReady | restartDone
  | values | chains | rewind | timecode | advance | jump | ended => exact .refl _
  | lanes ws later => delta State.takeLanes; exact .refl _

/-- A run of moves raises notices and does nothing else to the Management Unit. -/
theorem Moves.says {s t : State} (h : Moves s t) : s.mgmt.Says t.mgmt := by
  induction h with
  | refl => exact .refl _
  | tail _ hm ih => exact Relation.ReflTransGen.trans ih hm.says

/-- No move but the opening of a period and the block end touches the two marks of the period, and none sets the block end
due. -/
theorem Move.clock {s t : State} (h : Move s t) :
    (t.blockEndDue = s.blockEndDue ∨ t.blockEndDue = false) ∧ (t.periodOpen = s.periodOpen ∨ t.periodOpen = true) := by
  have of (u : State) (hu : s.onlyRooms u) :
      (u.blockEndDue = s.blockEndDue ∨ u.blockEndDue = false) ∧ (u.periodOpen = s.periodOpen ∨ u.periodOpen = true) :=
    ⟨.inl (State.onlyRooms_blockEndDue hu), .inl (State.onlyRooms_periodOpen hu)⟩
  cases h with
  | quiet part _ => exact ⟨.inl part.blockEndDue, .inl part.periodOpen⟩
  | tick _ => exact ⟨.inl rfl, .inr rfl⟩
  | newBlock _ _ _ => exact ⟨.inr rfl, .inl rfl⟩
  | restart => exact ⟨.inl rfl, .inl rfl⟩
  | law body => unfold State.loadFaderLaw; dsimp only; split <;> exact ⟨.inl rfl, .inl rfl⟩
  | load => exact ⟨.inl rfl, .inl rfl⟩
  | input => exact ⟨.inl rfl, .inl rfl⟩
  | park r _ => exact of _ (State.onlyRooms_transit _ _ _ _)
  | off r => exact of _ (State.onlyRooms_enterOff _ _)
  | halt r _ => exact of _ (State.onlyRooms_enterHalted _ _)
  | listen r _ _ => exact of _ (State.onlyRooms_transit _ _ _ _)
  | prove r own _ => exact of _ (State.onlyRooms_transit _ _ _ _)
  | goLive r _ _ => exact of _ (State.onlyRooms_transit _ _ _ _)
  | relive r _ => exact of _ (State.onlyRooms_transit _ _ _ _)
  | cancel r _ => exact of _ (State.onlyRooms_transit _ _ _ _)
  | proofEnd r _ _ => unfold State.endProof; exact of _ (State.onlyRooms_transit _ _ _ _)
  | loss r own _ => exact of _ (State.onlyRooms_transit _ _ _ _)
  | found r _ _ => exact of _ (State.onlyRooms_transit _ _ _ _)
  | handOn r c => exact of _ (State.onlyRooms_handOn _ _ _)
  | bottom r _ => exact of _ (State.onlyRooms_dipBottom _ _)
  | raise r x p n _ _ => exact of _ (State.onlyRooms_raiseCond _ _ _ _ _)
  | clear r x _ => exact of _ (State.onlyRooms_clearCond _ _ _)
  | ack r x n m => exact of _ (State.onlyRooms_ackOne _ _ _ _ _)
  | absence | record | settled | ramp | onAir | setRoom | gain | ascent | trims | judged | alarmEntry | draftClear
  | draftAppend | commit | asserted | released | placed | storeReady | restartDone | values | chains | rewind
  | timecode | advance | jump | ended => exact ⟨.inl rfl, .inl rfl⟩
  | lanes ws later => delta State.takeLanes; exact ⟨.inl rfl, .inl rfl⟩

theorem Moves.blockEndDue {s t : State} (h : Moves s t) (hs : s.blockEndDue = false) : t.blockEndDue = false :=
  h.keeps (P := fun u => u.blockEndDue = false) (fun _ _ hm ha => hm.clock.1.elim (fun e => e.trans ha) id) hs

theorem Moves.periodOpen {s t : State} (h : Moves s t) (hs : s.periodOpen = true) : t.periodOpen = true :=
  h.keeps (P := fun u => u.periodOpen = true) (fun _ _ hm ha => hm.clock.2.elim (fun e => e.trans ha) id) hs

/-! ### The supply warning and the opening of a period -/

theorem Moves.supplyActs (s : State) (order : List Room) (supplyFirst : Bool) : Moves s (s.supplyActs order supplyFirst) := by
  have h := (Move.asserted (s := s)).moves
  unfold State.supplyActs
  dsimp only
  split
  · exact (h.trans (.notifyPart _ _)).trans (.forRooms order _ (fun r s => Moves.supplyRoom r s) _)
  · exact (h.trans (.forRooms order _ (fun r s => Moves.supplyRoom r s) _)).trans (.notifyPart _ _)

theorem Moves.assertSupply (s : State) (order : List Room) (supplyFirst : Bool) :
    Moves s (s.assertSupply order supplyFirst) := by
  unfold State.assertSupply
  split
  · exact .refl s
  · exact .supplyActs s order supplyFirst

theorem Moves.dueSupply (s : State) : Moves s s.dueSupply := by
  unfold State.dueSupply
  split
  · exact .supplyActs s _ _
  · exact .refl s

theorem Moves.releaseSupply (s : State) : Moves s s.releaseSupply := by
  unfold State.releaseSupply
  split
  · exact ((Move.released (s := s)).moves.trans (.notifyPart _ _)).then (Move.placed rfl)
  · exact .refl s

/-- What is overdue is taken, and no block end is due after it. -/
theorem Moves.overdue (s : State) : Moves s s.overdue ∧ s.overdue.blockEndDue = false := by
  have h1 := Moves.dueSupply s
  have tail (u : State) : Moves u (Machine.forRooms [] (fun r s => s.attemptTimeout r) u) :=
    .forRooms [] _ (fun r s => Moves.attemptTimeout s r) _
  unfold State.overdue
  dsimp only
  split
  · exact ⟨(h1.trans (.blockEnd _ _)).trans (tail _), (tail _).blockEndDue rfl⟩
  · rename_i hd
    exact ⟨h1.trans (tail _), (tail _).blockEndDue (by simpa using hd)⟩

theorem Moves.openPeriod (s : State) : Moves s s.openPeriod := by
  unfold State.openPeriod
  split
  · exact .refl s
  · exact (Moves.overdue s).1.then (.tick (Moves.overdue s).2)

theorem State.openPeriod_open (s : State) : s.openPeriod.periodOpen = true := by
  unfold State.openPeriod
  split
  · assumption
  · rfl

/-! ### Events that are due -/

theorem Moves.takeDue {s : State} {due : State → Bool} {act : State → State} (h : ∀ t, due t = true → Moves t (act t)) :
    Moves s (s.takeDue due act) := by
  unfold State.takeDue
  split
  · exact (Moves.openPeriod s).trans (h _ ‹_›)
  · exact .refl s

theorem Moves.settlingEnd {s : State} {r : Room} (h : s.settlingDue r = true) : Moves s (s.settlingEnd r) := by
  refine (Move.settled r ?_).moves
  simp only [State.settlingDue, Path.settlingDue, decide_eq_true_eq] at h
  exact h.1

theorem Moves.dipBottom {s : State} {r : Room} (h : s.bottomDue r = true) : Moves s (s.dipBottom r) := (Move.bottom r h).moves

theorem Moves.ascentEnd {s : State} {r : Room} (h : s.ascentDue r = true) : Moves s (s.ascentEnd r) := (Move.ascent r h).moves

theorem Moves.storeEnd (s : State) : Moves s s.storeEnd := (Move.storeReady (s := s)).moves.trans (.notifyPart _ _)

theorem Moves.restartEnd (s : State) : Moves s s.restartEnd := (Move.restartDone (s := s)).moves.trans (.notifyPart _ _)

theorem Moves.forceRoom (r : Room) (s : State) : Moves s (State.forceRoom r s) := by
  unfold State.forceRoom
  dsimp only
  refine (((((Moves.force ?_ s).trans (.force ?_ _)).trans (.force ?_ _)).trans (.force ?_ _)).trans (.force ?_ _)).trans
    (.foldl _ ?_ _ _)
  · exact fun t h => .settlingEnd h
  · exact fun t h => .rampEnd h
  · exact fun t _ => .fadeEnd t r
  · exact fun t h => .dipBottom h
  · exact fun t h => .ascentEnd h
  · exact fun t k => .force (fun u h => .expire h) t

/-- A rack frame that leaves moves nothing. -/
theorem Moves.frameLeaves (s : State) (f : Vector Word 192) : Moves s { s with rackFrame := f } :=
  Moves.part rfl { mgmt := .refl _ }

/-- The chains that are due run. -/
theorem Moves.allChains (s : State) : Moves s (s.mapRooms fun rm => rm.runPeriod (s.activeProfile rm) (!s.blockEnded)) := by
  refine .chained (fun q => (s.room q).path.state.runs) { mgmt := .refl _ } fun q => ?_
  rw [State.room_stepDecode, State.room_mapRooms]
  exact RoomRec.sameCore_runPeriod _ _ _

theorem Moves.runPeriod (s : State) : Moves s s.runPeriod := (Moves.allChains s).trans (.frameLeaves _ _)

theorem State.room_putAhead (s : State) (rooms : List Room) (r : Room) :
    (s.putAhead rooms).room r = if r ∈ rooms then (s.room r).putAhead else s.room r := by
  simp [State.putAhead, State.room]

/-- The chains of some rooms come ahead of the events that follow. -/
theorem Moves.putAhead (s : State) (rooms : List Room) : Moves s (s.putAhead rooms) := by
  refine (Move.quiet (s := s) (t := s.putAhead rooms) { mgmt := .refl _ } fun q => ?_).moves
  rw [State.room_putAhead]
  split
  · exact RoomRec.sameCore_putAhead _
  · exact .refl _

theorem Moves.meteredBy (s v : State) : Moves s (s.meteredBy v) := .meters s _

/-- The events of a period are a run of moves. -/
theorem Moves.takeEvents (s : State) (lines : BitVec 16) (order : List Room) : Moves s (s.takeEvents lines order) := by
  have h := ((Moves.takeWaiting s).trans (Moves.forRooms order State.forceRoom (fun r s => Moves.forceRoom r s) _)).trans
    (.force (due := State.storeDue) (fun t _ => .storeEnd t) _)
  exact (h.trans (.force (due := State.restartDue) (fun t _ => .restartEnd t) _)).trans (.sampleLines _ lines)

/-- A block end in the open period that completes the block. -/
theorem Moves.endBlock {s : State} (h : s.periodOpen = true) (order : List Room) : Moves s (s.endBlock order) :=
  (Moves.blockEnd s order).then (.ended ((Moves.blockEnd s order).periodOpen h) rfl)

/-- What remains of an open period is a run of moves. -/
theorem Moves.endPeriod {s : State} (h : s.periodOpen = true) (lines : BitVec 16) (order : List Room) (blockFirst : Bool) :
    Moves s (s.endPeriod lines order blockFirst) := by
  have h0 := Moves.allHandovers s
  unfold State.endPeriod State.endBlockFirst
  dsimp only
  split
  · have hm := Moves.meteredBy s.allHandovers (s.allHandovers.takeEvents lines order)
    exact h0.trans (((hm.trans (.endBlock (hm.periodOpen (h0.periodOpen h)) order)).trans (.takeEvents _ lines order)).trans (.runPeriod _))
  · exact h0.trans ((Moves.takeEvents _ lines order).trans (.runPeriod _))

/-- A block end in the open last period, with the meters of the chains that come ahead of it. -/
theorem Moves.earlyBlockEnd {s : State} (h : s.periodOpen = true) (order : List Room) : Moves s (s.earlyBlockEnd order) :=
  have hm := Moves.meteredBy s (s.takeValues s.words fun r => decide (r ∈ s.waiting))
  hm.trans (.endBlock (hm.periodOpen h) order)

/-- SAMPLE_PERIOD is a run of moves, and its close where the period ends with it. -/
theorem Moves.samplePeriod (s : State) (lines : BitVec 16) (o : PeriodOrder) :
    ∃ t, Moves s t ∧ t.periodOpen = true ∧ s.samplePeriod lines o = if o.closes then t.closePeriod else t := by
  have h1 := (Moves.openPeriod s).trans (.putAhead _ o.ahead)
  have ho := (Moves.putAhead s.openPeriod o.ahead).periodOpen (State.openPeriod_open s)
  unfold State.samplePeriod
  cases o.closes
  · have h := Moves.readAll (s.openPeriod.putAhead o.ahead) o.rooms
    exact ⟨_, h1.trans h, h.periodOpen ho, rfl⟩
  · have h := Moves.endPeriod ho lines o.rooms o.blockFirst
    exact ⟨_, h1.trans h, h.periodOpen ho, rfl⟩

end Sys2Proof.Machine
end

