-- ==== Sys2Proof/Laws/Period.lean ====
section
/-! SUPPORT. A sample period as the rows of its events: SAMPLE_PERIOD takes what the rows would take one after another. -/

namespace Sys2Proof.Machine

/-- In an open period an event is taken when it is due, and otherwise nothing changes. -/
theorem State.takeDue_of_open {s : State} (h : s.periodOpen = true) (due : State → Bool) (act : State → State) :
    s.takeDue due act = s.force due act := by
  simp [State.takeDue, State.force, State.openPeriod, h]

/-- The rows of a room's own events, in the order in which SAMPLE_PERIOD takes them. -/
def eventRows (r : Room) : List Instr := [.settlingEnd r, .pathRampEnd r, .fadeEnd r, .dipBottom r, .dipAscentEnd r,
      .timerExpiry r 0, .timerExpiry r 1, .timerExpiry r 2, .timerExpiry r 3]

/-- A period stays open over an event. -/
theorem State.periodOpen_force {s : State} {due : State → Bool} {act : State → State} (h : s.periodOpen = true)
    (hm : ∀ t, due t = true → Moves t (act t)) : (s.force due act).periodOpen = true :=
  (Moves.force hm s).periodOpen h

/-- A row that takes an event when it is due. -/
theorem State.after_due {s : State} {c : Instr} {due : State → Bool} {act : State → State} (cs : List Instr)
    (h : s.periodOpen = true) (hc : ∀ t, exec c t = .next (t.takeDue due act)) :
    s.after (c :: cs) = (s.force due act).after cs := by
  rw [State.after_cons cs (hc s), State.takeDue_of_open h]

/-- What SAMPLE_PERIOD takes of a room is what the room's rows take one after another. -/
theorem State.after_eventRows {s : State} (r : Room) (h : s.periodOpen = true) : s.after (eventRows r) = State.forceRoom r s := by
  unfold eventRows
  have h1 := State.periodOpen_force (due := State.settlingDue r) h (fun t h => Moves.settlingEnd h)
  rw [State.after_due _ h fun t => rfl]
  have h2 := State.periodOpen_force (due := State.rampDue r) (act := (·.rampEnd r)) h1 (fun t h => Moves.rampEnd h)
  rw [State.after_due _ h1 fun t => rfl]
  have h3 := State.periodOpen_force (due := State.fadeDue r) (act := (·.fadeEnd r)) h2 (fun t h => Moves.fadeEnd t r)
  rw [State.after_due _ h2 fun t => rfl]
  have h4 := State.periodOpen_force (due := State.bottomDue r) (act := (·.dipBottom r)) h3 (fun t h => Moves.dipBottom h)
  rw [State.after_due _ h3 fun t => rfl]
  have h5 := State.periodOpen_force (due := State.ascentDue r) (act := (·.ascentEnd r)) h4 (fun t h => Moves.ascentEnd h)
  rw [State.after_due _ h4 fun t => rfl]
  have h6 := State.periodOpen_force (due := State.timerDue r 0) (act := (·.expire r 0)) h5 (fun t h => Moves.expire h)
  rw [State.after_due _ h5 fun t => rfl]
  have h7 := State.periodOpen_force (due := State.timerDue r 1) (act := (·.expire r 1)) h6 (fun t h => Moves.expire h)
  rw [State.after_due _ h6 fun t => rfl]
  have h8 := State.periodOpen_force (due := State.timerDue r 2) (act := (·.expire r 2)) h7 (fun t h => Moves.expire h)
  rw [State.after_due _ h7 fun t => rfl]
  rw [State.after_due _ h8 fun t => rfl, State.after_nil]
  have e : List.finRange 4 = [0, 1, 2, 3] := by decide
  simp only [State.forceRoom, e, List.foldl_cons, List.foldl_nil]

/-- The same for several rooms. -/
theorem State.after_rooms (l : List Room) {s : State} (h : s.periodOpen = true) :
   s.after (l.flatMap eventRows) = l.foldl (fun s r => State.forceRoom r s) s := by
  induction l generalizing s with
  | nil => rfl
  | cons r l ih =>
    rw [List.flatMap_cons, State.after_append, State.after_eventRows r h, ih ((Moves.forceRoom r s).periodOpen h), List.foldl_cons]

/-- The hand-overs that SAMPLE_PERIOD takes are those that ALARM_HANDOVER takes, one after another. -/
theorem State.after_handovers (l : List Handover) {s : State} (h : s.periodOpen = true) :
   s.after (l.map fun x => .alarmHandover x.room) = l.foldl (fun u h => u.nextHandover h.room) s := by
  induction l generalizing s with
  | nil => rfl
  | cons x l ih =>
    have e : exec (.alarmHandover x.room) s = .next (s.nextHandover x.room) := by
      show Host.Outcome.next (s.takeDue _ _) = _
      rw [State.takeDue_of_open h]
      unfold State.force
      cases hh : s.handoverOf x.room with
      | none => simp [State.nextHandover, hh]
      | some y => simp [hh]
    rw [List.map_cons, State.after_cons _ e, ih ((Moves.nextHandover s x.room).periodOpen h), List.foldl_cons]

/-- The events of a period are the words that rooms have put off, those of the rows, one after another, and the samples of the
contact lines. -/
theorem State.takeEvents_eq {s : State} (h : s.periodOpen = true) (lines : BitVec 16) (order : List Room) :
    s.takeEvents lines order =
      (s.takeWaiting.after ((visit order).flatMap eventRows ++ [.tableStoreInitEnd, .restartEnd])).sampleLines lines := by
  have hw : s.takeWaiting.periodOpen = true := (Moves.takeWaiting s).periodOpen h
  have ho : (forRooms order State.forceRoom s.takeWaiting).periodOpen = true :=
    (Moves.forRooms order State.forceRoom (fun r s => Moves.forceRoom r s) _).periodOpen hw
  have h2 := State.periodOpen_force (due := State.storeDue) (act := State.storeEnd) ho (fun t h => Moves.storeEnd t)
  unfold State.takeEvents
  rw [State.after_append, State.after_rooms _ hw]
  show _ = (State.after (forRooms order State.forceRoom s.takeWaiting) _).sampleLines lines
  rw [State.after_due _ ho fun t => rfl, State.after_due _ h2 fun t => rfl]
  rfl

end Sys2Proof.Machine
end

