-- ==== Sys2Proof/Laws/Serving.lean ====
section
/-! SUPPORT. The requests as runs of moves, and every command as a run of turns. -/

namespace Sys2Proof.Machine

/-! ### The rules of the kinds (Table 10-1) -/

theorem Moves.profile (s : State) (p : Fin 4) (f : Profile → Profile) : Moves s (s.modProfile p f) :=
  Moves.part rfl { mgmt := .refl _ }

theorem Moves.setOutput (s : State) (o : Fin 24) (on : Bool) (by_ : LastSet) : Moves s (s.setOutput o on by_) :=
  Moves.part rfl { mgmt := .refl _ }

theorem Moves.reqGo {s : State} (hn : s.notReady = false) (r : Room) (body : List Payload) :
    Moves s (s.reqGo r body).1 := by
  unfold State.reqGo
  dsimp only
  split
  · exact .refl s
  · split <;> exact .goJudge r _ hn

theorem Moves.reqSetRoom (s : State) (r : Room) (body : List Payload) : Moves s (s.reqSetRoom r body).1 := by
  unfold State.reqSetRoom
  dsimp only
  split
  · exact .refl s
  · split
    · exact .refl s
    · split
      · exact (Move.setRoom r _ _ _ _ (.inl ‹_›)).moves
      · exact (Move.setRoom r _ _ _ _ (.inr (.inl ‹_›))).moves
      · exact (Move.setRoom r _ _ _ _ (.inr (.inr ‹_›))).moves
      all_goals exact .refl s

theorem Moves.reqSetGuard (s : State) (r : Room) (body : List Payload) : Moves s (s.reqSetGuard r body).1 := by
  unfold State.reqSetGuard
  split
  · exact .quietRoom s r (fun rm => { rm with guard := _ }) rfl rfl
  · exact .refl s

theorem Timecode.last_switch (tc : Timecode) (old new : Option Lane) : (tc.switch old new).last = tc.last := by
  unfold Timecode.switch
  split
  · rfl
  · split <;> rfl

theorem Moves.writeMap (s : State) (r : Room) (which : Source) (m : SourceMap) :
    Moves s (s.modRoom r fun rm => rm.writeMap which m) := by
  refine .quietRoom s r (fun rm => rm.writeMap which m) ?_ ?_
  all_goals
    unfold RoomRec.writeMap
    cases which <;> dsimp only <;> split <;> first | rfl | exact Timecode.last_switch _ _ _

theorem Moves.reqSetSourceMap (s : State) (r : Room) (body : List Payload) : Moves s (s.reqSetSourceMap r body).1 := by
  unfold State.reqSetSourceMap
  split
  · split
    · exact .refl s
    · exact .writeMap s r _ _
  · exact .refl s

theorem Moves.reqSelectSource (s : State) (r : Room) (body : List Payload) : Moves s (s.reqSelectSource r body).1 := by
  unfold State.reqSelectSource
  split
  · exact (Move.handOn r _).moves
  · exact .refl s

theorem Moves.reqSelectBank (s : State) (r : Room) (body : List Payload) : Moves s (s.reqSelectBank r body).1 := by
  unfold State.reqSelectBank
  split
  · exact (Move.handOn r _).moves
  · exact .refl s

theorem Moves.reqSelectFormat (s : State) (r : Room) (body : List Payload) : Moves s (s.reqSelectFormat r body).1 := by
  unfold State.reqSelectFormat
  split
  · exact .selectFormat s r _
  · exact .refl s

theorem Moves.reqSetGain (s : State) (r : Room) (body : List Payload) : Moves s (s.reqSetGain r body).1 :=
  .setGain s r _ _

theorem Moves.reqSetMute (s : State) (r : Room) (body : List Payload) : Moves s (s.reqSetMute r body).1 := by
  unfold State.reqSetMute
  split
  · exact .setMute s r _
  · exact .refl s

theorem Moves.reqSetFormatEntry (s : State) (r : Room) (body : List Payload) : Moves s (s.reqSetFormatEntry r body).1 := by
  unfold State.reqSetFormatEntry
  dsimp only
  split
  · split
    · exact .refl s
    · split
      · exact .refl s
      · rename_i h
        exact (Move.load r _ (by simpa using h) (.inl ⟨_, _, rfl⟩)).moves
  · exact .refl s

theorem Moves.reqClearProfile (s : State) (body : List Payload) : Moves s (s.reqClearProfile body).1 := by
  unfold State.reqClearProfile
  split
  · exact .refl s
  · split
    · exact .refl s
    · exact .profile s _ _

theorem Moves.reqLoadProfileRow (s : State) (body : List Payload) : Moves s (s.reqLoadProfileRow body).1 := by
  unfold State.reqLoadProfileRow
  dsimp only
  split
  · split
    · exact .refl s
    · simp only [State.accept]
      exact .profile s _ _
  · exact .refl s

theorem Moves.reqSetProfileParams (s : State) (body : List Payload) : Moves s (s.reqSetProfileParams body).1 := by
  unfold State.reqSetProfileParams
  dsimp only
  split
  · exact .refl s
  · split
    · exact .refl s
    · simp only [State.accept]
      exact .profile s _ _

theorem Moves.reqLoadSections (s : State) (r : Room) (body : List Payload) : Moves s (s.reqLoadSections r body).1 := by
  unfold State.reqLoadSections
  dsimp only
  split
  · split
    · exact .refl s
    · split
      · exact .refl s
      · split
        · exact .refl s
        · rename_i h
          exact (Move.load r _ (by simpa using h) (.inr (.inl ⟨_, _, body, _, _, rfl⟩))).moves
  · exact .refl s

theorem Moves.reqSetTrims (s : State) (r : Room) (body : List Payload) : Moves s (s.reqSetTrims r body).1 := by
  unfold State.reqSetTrims
  dsimp only
  split
  · exact .refl s
  · split
    · exact .refl s
    · exact (Move.trims r _ fun k => trimArg body k.val).moves

theorem Moves.reqClearBank (s : State) (r : Room) (body : List Payload) : Moves s (s.reqClearBank r body).1 := by
  unfold State.reqClearBank
  dsimp only
  split
  · exact .refl s
  · split
    · exact .refl s
    · split
      · exact .refl s
      · rename_i h
        exact (Move.load r _ (by simpa using h) (.inr (.inr (.inl ⟨_, rfl⟩)))).moves

theorem Moves.reqCopyBank (s : State) (r : Room) (body : List Payload) : Moves s (s.reqCopyBank r body).1 := by
  unfold State.reqCopyBank
  dsimp only
  split
  · exact .refl s
  · split
    · exact .refl s
    · split
      · exact .refl s
      · rename_i h
        exact (Move.load r _ (by simpa using h) (.inr (.inr (.inr ⟨_, rfl⟩)))).moves

theorem Moves.reqSetAlarm (s : State) (r : Room) (body : List Payload) : Moves s (s.reqSetAlarm r body).1 := by
  unfold State.reqSetAlarm
  dsimp only
  split
  · exact .refl s
  · exact (Move.alarmEntry r _ _).moves

theorem Moves.reqAck (s : State) (r : Room) (body : List Payload) : Moves s (s.reqAck r body).1 := by
  unfold State.reqAck
  dsimp only
  split
  · exact .refl s
  · exact Moves.acks r _ (s, 0, 0)

theorem Moves.reqDraftClear (s : State) (r : Room) : Moves s (s.reqDraftClear r).1 := (Move.draftClear r).moves

/-- Entries that pass the first check are all read. -/
theorem cue_of_filterMap {l : List (List Payload)} {c : Cue} (h : c ∈ l.filterMap Cue.ofWords) :
    ∃ w, Cue.ofWords w = some c := by
  obtain ⟨w, -, e⟩ := List.mem_filterMap.1 h
  exact ⟨w, e⟩

theorem Moves.reqDraftAppend (s : State) (r : Room) (body : List Payload) : Moves s (s.reqDraftAppend r body).1 := by
  unfold State.reqDraftAppend
  dsimp only
  split
  · exact .refl s
  · split
    · exact .refl s
    · split
      · exact .refl s
      · split
        · exact .refl s
        · rename_i ho h
          rw [not_or] at h
          exact (Move.draftAppend r _ ho (fun c hc => cue_of_filterMap hc) (Nat.not_lt.1 h.1) (Nat.not_lt.1 h.2)).moves

theorem Moves.reqCommit {s : State} (hs : s.supply = false) (r : Room) : Moves s (s.reqCommit r).1 := by
  unfold State.reqCommit
  dsimp only
  split
  · exact .refl s
  · exact (Move.commit r ‹_› hs).moves

theorem Moves.reqCueGo {s : State} (hc : s.cuesFire = true) (r : Room) (o : BitVec 6) (body : List Payload) :
    Moves s (s.reqCueGo r o body).1 := by
  unfold State.reqCueGo
  dsimp only
  split
  · exact .refl s
  · split
    · exact .refl s
    · exact .fire hc r _ _

theorem Moves.reqRewind (s : State) (r : Room) : Moves s (s.reqRewind r).1 := (Move.rewind r).moves

theorem Moves.reqTimerStart (s : State) (r : Room) (body : List Payload) : Moves s (s.reqTimerStart r body).1 := by
  unfold State.reqTimerStart
  split
  · split
    · exact .refl s
    · exact .modTimer s r _ _ fun _ => Timer.ok_start _ _ _ _
  · exact .refl s

theorem Moves.reqTimerStop (s : State) (r : Room) (body : List Payload) : Moves s (s.reqTimerStop r body).1 := by
  unfold State.reqTimerStop
  split
  · exact .modTimer s r _ _ Timer.ok_stop
  · exact .refl s

theorem Moves.reqSetOwner (s : State) (body : List Payload) : Moves s (s.reqSetOwner body).1 := by
  unfold State.reqSetOwner
  split
  · exact .refl s
  · split
    · split
      · exact Moves.input s _ (fun c => { c with owner := _ }) (.inr rfl)
      · exact .refl s
    · split
      · split
        · exact Moves.part rfl { mgmt := .refl _ }
        · exact .refl s
      · exact .refl s

theorem Moves.reqSetContact (s : State) (o : BitVec 6) (body : List Payload) : Moves s (s.reqSetContact o body).1 := by
  unfold State.reqSetContact
  split
  · exact .setOutput s _ _ _
  · exact .refl s

/-- The rule of a kind that passes steps 3 and 5 of admission is a run of moves. -/
theorem Moves.serve (s : State) (k : Kind) (q : Request) (hn : s.notReady = true → k = .readPart)
    (hs : s.supply = true → k.isRead = true ∨ exempt k q = true) : Moves s (s.serve k q).1 := by
  have ready (h : k ≠ .readPart) : s.notReady = false := by
    cases e : s.notReady
    · rfl
    · exact absurd (hn e) h
  have safe (h : k.isRead = false ∧ exempt k q = false) : s.supply = false := by
    cases e : s.supply
    · rfl
    · exact absurd (hs e) (by simp [h.1, h.2])
  have read (a : Answer) (h : a.1 = s) : Moves s a.1 := h ▸ .refl s
  unfold State.serve
  dsimp only
  cases k <;> dsimp only
  case readPart | readRoom | readMeters | readContacts => exact .refl s
  case readCounts => exact read _ (by unfold State.reqReadCounts; repeat (first | rfl | (dsimp only; split) | split))
  case readAlarms => exact read _ (by unfold State.reqReadAlarms; repeat (first | rfl | (dsimp only; split) | split))
  case readCues => exact read _ (by unfold State.reqReadCues; repeat (first | rfl | (dsimp only; split) | split))
  case readBank => exact read _ (by unfold State.reqReadBank; repeat (first | rfl | (dsimp only; split) | split))
  case readProfile => exact read _ (by unfold State.reqReadProfile; repeat (first | rfl | (dsimp only; split) | split))
  case go => exact .reqGo (ready (by simp)) _ _
  case setRoom => exact .reqSetRoom s _ _
  case setGuard => exact .reqSetGuard s _ _
  case setSourceMap => exact .reqSetSourceMap s _ _
  case selectSource => exact .reqSelectSource s _ _
  case setFormatEntry => exact .reqSetFormatEntry s _ _
  case selectFormat => exact .reqSelectFormat s _ _
  case clearProfile => exact .reqClearProfile s _
  case loadProfileRow => exact .reqLoadProfileRow s _
  case setProfileParams => exact .reqSetProfileParams s _
  case loadFaderLaw => exact (Move.law _).moves
  case setGain => exact .reqSetGain s _ _
  case setMute => exact .reqSetMute s _ _
  case loadSections => exact .reqLoadSections s _ _
  case setTrims => exact .reqSetTrims s _ _
  case clearBank => exact .reqClearBank s _ _
  case copyBank => exact .reqCopyBank s _ _
  case selectBank => exact .reqSelectBank s _ _
  case setAlarmEntry => exact .reqSetAlarm s _ _
  case ackAlarm => exact .reqAck s _ _
  case maskAlarms => exact .setMask s _ _
  case cueDraftClear => exact .reqDraftClear s _
  case cueDraftAppend => exact .reqDraftAppend s _ _
  case cueCommit => exact .reqCommit (safe ⟨rfl, rfl⟩) _
  case cueGo => exact .reqCueGo (by simp [State.cuesFire, ready (by simp), safe ⟨rfl, rfl⟩]) _ _ _
  case cueRewind => exact .reqRewind s _
  case timerStart => exact .reqTimerStart s _ _
  case timerStop => exact .reqTimerStop s _ _
  case setContactOwner => exact .reqSetOwner s _
  case setContact => exact .reqSetContact s _ _
  case engineRestart => exact Move.restart.moves

/-- Judging a request and performing it is a run of moves (R195). -/
theorem Moves.answer (s : State) (q : Request) : Moves s (s.answer q).1 := by
  rcases s.answer_cases q with ⟨-, e⟩ | ⟨k, res, -, -, e⟩ | ⟨k, -, ha, e⟩ <;> rw [e]
  · exact .refl s
  · exact .refl s
  · unfold State.admission at ha
    refine .serve s k q (fun h => ?_) fun h => ?_
    · by_contra hk
      have hh : s.notReady = true ∧ k ≠ .readPart := ⟨h, hk⟩
      repeat' split at ha
      all_goals cases ha
    · by_contra hk
      rw [not_or, Bool.not_eq_true, Bool.not_eq_true] at hk
      have hh : s.supply = true ∧ k.isRead = false ∧ exempt k q = false := ⟨h, hk⟩
      repeat' split at ha
      all_goals cases ha

/-! ### Turns: a command beside the moves -/

/-- A step of a command: a move, a change of the Management Unit and the outbound frame alone, or the close of a sample
period. -/
inductive Turn : State → State → Prop where
  | move {s t : State} (h : Move s t) : Turn s t
  | desk {s : State} (m : Mgmt) (out : Vector Word 4) : Turn s { s with mgmt := m, outFrame := out }
  | close {s : State} (h : s.periodOpen = true) : Turn s s.closePeriod

/-- A run of turns. -/
def Turns : State → State → Prop := Relation.ReflTransGen Turn

theorem Turns.refl (s : State) : Turns s s := Relation.ReflTransGen.refl

theorem Turns.trans {s t u : State} (h : Turns s t) (h' : Turns t u) : Turns s u := Relation.ReflTransGen.trans h h'

theorem Turn.turns {s t : State} (h : Turn s t) : Turns s t := Relation.ReflTransGen.single h

theorem Moves.turns {s t : State} (h : Moves s t) : Turns s t := by
  induction h with
  | refl => exact .refl s
  | tail _ hm ih => exact ih.trans (Turn.move hm).turns

theorem Turns.desk (s : State) (m : Mgmt) : Turns s { s with mgmt := m } := (Turn.desk m s.outFrame).turns

/-- What every turn keeps, a run of turns keeps. -/
theorem Turns.keeps {P : State → Prop} (hP : ∀ s t, Turn s t → P s → P t) {s t : State} (h : Turns s t) (hs : P s) :
    P t := by
  induction h with
  | refl => exact hs
  | tail _ hm ih => exact hP _ _ hm ih

/-! ### The Management Unit (10, 11) -/

theorem Turns.perform1 (s : State) (q : Request) : Turns s (s.perform1 q) :=
  (Moves.answer s q).turns.trans (.desk _ _)

theorem Turns.takeHead (s : State) : Turns s s.takeHead := by
  rcases s.takeHead_cases with ⟨q, rest, -, -, e⟩ | ⟨-, e⟩ <;> rw [e]
  · exact (Turns.desk s _).trans (.perform1 _ q)
  · exact .refl s

theorem Turns.complete (s : State) (q : Request) : Turns s (s.complete q) := by
  rcases s.complete_cases q with ⟨-, e⟩ | ⟨-, e⟩ <;> rw [e]
  · exact (Turns.desk s _).trans (.takeHead _)
  · exact (Turns.desk s _).trans (Moves.notifyPart _ _).turns

theorem Turns.breakAssembly (s : State) : Turns s s.breakAssembly := by
  unfold State.breakAssembly
  split
  · exact .refl s
  · exact .desk s _

theorem Turns.submit (s : State) (h : Header) (kind : BitVec 6) (body : List Payload) : Turns s (s.submit h kind body) :=
  ((Moves.openPeriod s).turns.trans (.breakAssembly _)).trans (.complete _ _)

theorem Turns.assembled (s : State) (a : Assembly) : Turns s (s.assembled a) := by
  unfold State.assembled
  split
  · exact (Turns.desk s _).trans (.complete _ _)
  · exact .desk s _

theorem Turns.takeWord (s : State) (w : SlotWord) : Turns s (s.takeWord w) := by
  unfold State.takeWord
  split
  · exact .breakAssembly s
  · exact .desk s _
  · exact (Turns.breakAssembly s).trans (.desk _ _)
  · split
    · exact .desk s _
    · exact .assembled s _
    · exact .assembled s _

theorem Turns.takeSlots (s : State) (slots : Vector Word 4) : Turns s (s.takeSlots slots) := by
  have fold : ∀ (l : List (Fin 4)) (s : State), Turns s (l.foldl (fun s i => s.takeWord (.ofWord slots[i])) s) := by
    intro l
    induction l with
    | nil => exact fun s => .refl s
    | cons i l ih => exact fun s => (Turns.takeWord s _).trans (ih _)
  exact fold _ s

theorem Turns.finish (s : State) (isReply : Bool) : Turns s (s.finish isReply) := by
  unfold State.finish
  dsimp only
  split
  · exact (Turns.desk s _).trans (.takeHead _)
  · exact .desk s _

theorem Turns.choose (s : State) : Turns s s.choose := by
  unfold State.choose
  split
  · exact .desk s _
  · exact .desk s _
  · exact .refl s

theorem Turns.sendNext (s : State) : Turns s s.sendNext.1 := by
  unfold State.sendNext
  split
  · split
    · exact .finish s _
    · exact .desk s _
  · exact .refl s
  · exact .refl s

theorem Turns.fillSlot (s : State) : Turns s s.fillSlot.1 := by
  unfold State.fillSlot
  split
  · exact (Turns.choose s).trans (.sendNext _)
  · exact .sendNext s

theorem Turns.sendFrame (s : State) : Turns s s.sendFrame := by
  have h := (((Turns.fillSlot s).trans (.fillSlot _)).trans (.fillSlot _)).trans (.fillSlot _)
  unfold State.sendFrame
  split
  · exact (Turn.desk s.mgmt _).turns
  · unfold State.fillFrame
    dsimp only
    exact h.trans (Turn.desk _ _).turns

/-! ### Every command -/

theorem Turns.feedFrame (s : State) (ws : Vector Word 256) (slots : Vector Word 4) (order : FrameOrder) :
    Turns s (s.feedFrame ws slots order) :=
  ((Moves.openPeriod s).trans (.intake _ ws order)).turns.trans (.takeSlots _ slots)

theorem Turns.missingFrame (s : State) (order : FrameOrder) : Turns s (s.missingFrame order) :=
  ((Moves.openPeriod s).trans (.intake _ _ order)).turns.trans (.breakAssembly _)

theorem Turns.samplePeriod (s : State) (lines : BitVec 16) (o : PeriodOrder) : Turns s (s.samplePeriod lines o) := by
  obtain ⟨t, h, ho, e⟩ := Moves.samplePeriod s lines o
  rw [e]
  split
  · exact h.turns.trans (Turn.close ho).turns
  · exact h.turns

theorem Moves.takeTimeout (s : State) (r : Room) : Moves s (s.takeTimeout r) := by
  unfold State.takeTimeout
  split
  · exact .refl s
  · exact .attemptTimeout s r

theorem Moves.takeBlockEnd (s : State) (order : List Room) : Moves s (s.takeBlockEnd order) := by
  unfold State.takeBlockEnd
  split
  · exact .blockEnd s order
  · split
    · rename_i h
      exact .earlyBlockEnd (by simp_all [State.blockReady]) order
    · exact .refl s

/-- Every command is a full reset or a run of turns, so an invariant that the reset state has and every turn keeps is kept by
every command. -/
theorem exec_turns (i : Instr) (s t : State) (h : exec i s = .next t) :
    (∃ line, i = .fullReset line ∧ t = s.fullReset line) ∨ Turns s t := by
  rcases hq : request? i with _ | q
  · cases i <;> simp [request?] at hq
    all_goals
      have e := (Host.Outcome.next.inj h).symm
      subst e
    · exact .inl ⟨_, rfl, rfl⟩
    all_goals refine .inr ?_
    · exact ((Moves.openPeriod s).trans (.assertSupply _ _ _)).turns
    · exact ((Moves.openPeriod s).trans (.releaseSupply _)).turns
    · exact .feedFrame s _ _ _
    · exact .missingFrame s _
    · exact ((Moves.openPeriod s).trans (.takeRack _ _ _)).turns
    · exact .samplePeriod s _ _
    · exact (Moves.openPeriod s).turns.trans (.sendFrame _)
    · exact (Moves.takeDue fun t h => Moves.settlingEnd h).turns
    · exact (Moves.takeDue fun t _ => Moves.takeRack t _ _).turns
    · exact (Moves.takeDue fun t _ => Moves.takeRack t _ _).turns
    · exact (Moves.takeTimeout s _).turns
    · exact (Moves.takeDue fun t h => Moves.rampEnd h).turns
    · exact (Moves.takeDue fun t _ => Moves.fadeEnd t _).turns
    · exact (Moves.takeDue fun t h => Moves.dipBottom h).turns
    · exact (Moves.takeDue fun t h => Moves.ascentEnd h).turns
    · exact (Moves.takeDue fun t _ => Moves.takeRow t _ _).turns
    · exact (Moves.takeDue fun t _ => Moves.takeRow t _ _).turns
    · exact (Moves.takeBlockEnd s _).turns
    · exact (Moves.takeDue fun t _ => Moves.nextHandover t _).turns
    · exact (Moves.takeDue fun t h => Moves.expire h).turns
    · exact (Moves.takeDue fun t _ => Moves.takeContactEdge t _).turns
    · exact (Moves.takeDue fun t _ => Moves.storeEnd t).turns
    · exact (Moves.takeDue fun t _ => Moves.restartEnd t).turns
  · have e := (Host.Outcome.next.inj ((exec_of_request s hq).symm.trans h)).symm
    subst e
    exact .inr (((Moves.openPeriod s).turns.trans (.breakAssembly _)).trans (.complete _ q))

end Sys2Proof.Machine
end

