-- ==== Sys2Proof/Tests/Slice0.lean ====
section
/-! SUPPORT. Tests of the model. The expected results come from the worked examples and rules of spec/, named at each test; the
last part shows, for each statement with premises, that a concrete state meets them. -/

open Sys2Proof Sys2Proof.Machine

namespace Sys2Proof.Tests

set_option Elab.async false

/-! ### The WellFormed smoke: an ill-formed term for each check -/

theorem test_wf_body_too_long : Instr.wellFormed (.go ⟨0, 0, 2, 0⟩ (List.replicate 128 0)) = false := by decide +kernel
theorem test_wf_order_repeats : Instr.wellFormed (.missingFeedFrame ⟨[3, 3], []⟩) = false := by decide +kernel
theorem test_wf_kind_known : Instr.wellFormed (.unknownKindRequest ⟨0, 0, 15, 0⟩ 40 []) = false := by decide +kernel
theorem test_wf_debounce_absent : Instr.wellFormed (.debounceComplete 2 0#32) = false := by decide +kernel
theorem test_wf_loss_present : Instr.wellFormed (.rackLoss 2 (some 0x2000000#32)) = false := by decide +kernel
theorem test_wf_accepts : Instr.wellFormed (.rackLoss 2 none) = true ∧
    Instr.wellFormed (.unknownKindRequest ⟨0, 0, 15, 0⟩ 41 []) = true ∧
    Instr.wellFormed (.go ⟨0, 0, 2, 0⟩ (List.replicate 127 0)) = true := by decide +kernel

/-! ### Small states -/

/-- A format entry of SET_FORMAT_ENTRY, and its body. -/
def mx4Body : List Payload := [3, 1, 2] ++ List.replicate 16 17#28
def mx4Entry : FormatEntry := ⟨.mx4, 2, Vector.replicate 16 (.decode .c)⟩

/-- The part with its Table Store READY (R206), in a sample period. -/
def up : State := { State.reset with store := .ready, periodOpen := true }

/-- The part between two sample periods. -/
def shut (s : State) : State := { s with periodOpen := false }

/-- Room 2's record after a reset, changed; every other room as after a reset. -/
def room2 (f : RoomRec → RoomRec) : State := up.modRoom 2 f

/-- Room 2 with its path in a state and phase. -/
def inState (st : RoomState) (ph : Phase) (f : Path → Path := id) : State :=
  room2 fun rm => { rm with path := f { rm.path with state := st, phase := ph } }

/-- Room 2 on the air: LIVE, phase none, p at unity, every channel PASSED. -/
def onAir : State := inState .live .none fun p => { p with
  proven := true, p := 65536, record := Vector.ofFn fun _ => ⟨.passed, 1⟩ }

/-- A message of originator 9 at a level, naming a room code, with tag 300. -/
def msg (level : BitVec 2) (room : BitVec 4) : Header := ⟨9, level, room, 300⟩

/-- A frame whose timecode every room takes with the frame. -/
def atOnce : FrameOrder := ⟨[], []⟩

/-- A period whose chains all run at its end, after its events and before its block end. -/
def close : PeriodOrder := ⟨[], false, [], true⟩

/-- A period whose block end comes before the chains of every room. -/
def closeFirst : PeriodOrder := ⟨[], true, [], true⟩

/-- The chains of some rooms ahead of the rest of their period, which goes on. -/
def chains (rooms : List Room) : PeriodOrder := ⟨[], false, rooms, false⟩

/-- The state after a command. -/
def after (i : Instr) (s : State) : State :=
  match exec i s with
  | .next t => t
  | .fault _ | .refused _ => s

/-- The result and the packed body of the reply in the holder. -/
def reply (s : State) : Option (Result × List Payload) := s.mgmt.holder.map fun m => (m.result, m.body)

/-- The room of the notices waiting, with their bodies. -/
def said (s : State) : List (Option Room × NoticeBody) := s.mgmt.notices.map fun n => (n.room.map (·.1), n.body)

/-! ### Rooms and the output path (01) -/

/-- R18: the pilot's runs of 24. -/
theorem test_pilot_runs : pilot 1 = 838861 ∧ pilot 24 = 838861 ∧ pilot 25 = -838861 ∧ pilot 48 = -838861 ∧ pilot 49 = 838861 := by
  decide +kernel

/-- "A proof with one retry": in the period whose word ends the proof the channel still carries its pilot, and none after it. -/
theorem test_pilot_of_last_period :
    let s := inState .prove .proving fun p => { p with fitted := 1, seqCount := 300, proofPos := some ⟨0, 2⟩ }
    let t := after (.samplePeriod 0 close) (after (.rackWord 2 (some (0x2800000#32 + 600000#32))) s)
    (t.room 2).path.state = .ready ∧ (t.rackFrame[32], t.rackFrame[33]) = (laneWordOut 838861, laneWordOut 0) ∧
      (after (.samplePeriod 0 close) t).rackFrame[32] = laneWordOut 0 := by decide +kernel

/-- Chapter 12.5: at period 240 of the ramp-in p is 32,768; R25 at 480. -/
theorem test_ramp_in_half : interp 0 65536 480 240 = 32768 ∧ interp 0 65536 480 480 = 65536 ∧ interp 65536 0 192 1 = 65195 := by
  decide +kernel

/-- "Rack loss on the air": the 2,400th absent word halts the room. -/
theorem test_rack_loss_on_air :
    let s := onAir.modRoom 2 fun rm => { rm with path := { rm.path with rackAbsence := 2399 } }
    let t := after (.rackWord 2 none) s
    (t.room 2).path.state = .halted ∧ (t.room 2).path.p = 0 ∧ (t.room 2).path.proven = false ∧
      (t.room 2).path.halt = .rackLost ∧ said t = [(some 2, .roomState .live)] := by decide +kernel

/-- The 2,399th absent word changes only the run. -/
theorem test_rack_absence_below :
    let s := onAir.modRoom 2 fun rm => { rm with path := { rm.path with rackAbsence := 2398 } }
    let t := after (.rackLoss 2 none) s
    (t.room 2).path.state = .live := by decide +kernel

/-- R16: the 12,000th present word, and its two notices. -/
theorem test_debounce_complete :
    let s := inState .listen .debouncing fun p => { p with seqCount := 11999 }
    let t := after (.debounceComplete 2 0x2000000#32) s
    (t.room 2).path.state = .ready ∧ said t = [(some 2, .roomState .listen), (some 2, .rackFound)] := by decide +kernel

/-- Chapter 12.5: GO_LISTEN is answered OK with LISTEN (1), settling (1). -/
theorem test_go_listen :
    let t := after (.go (msg 1 2) [1]) up
    reply t = some (.ok, [9]) ∧ said t = [(some 2, .roomState .off)] := by decide +kernel

/-- Chapter 12.11: GO_PARK from the console begins ramping-out-park. -/
theorem test_go_park : (((after (.go (msg 2 2) [4]) onAir).room 2).path.phase) = .rampingOutPark := by decide +kernel

/-- R13: wake raises RACK_WAKE in PARKED when last wake was no, and not again while it stays yes. -/
theorem test_rack_wake :
    let t := after (.rackWord 2 (some 0x3000000#32)) (inState .parked .none)
    said t = [(some 2, .rackWake)] ∧ said (after (.rackWord 2 (some 0x3000000#32)) t) = said t := by decide +kernel

/-- R29: SET_ROOM with min above max is refused. -/
theorem test_set_room_limits : reply (after (.setRoom (msg 1 2) [255, 10, 9, 1]) up) = some (.badField, []) := by decide +kernel

/-- "A proof with one retry": the window of channel 5's first attempt ends without a pass. -/
theorem test_attempt_retry :
    let s := inState .prove .proving fun p => { p with fitted := 63, seqCount := 1920, proofPos := some ⟨5, 1⟩ }
    ((after (.pilotAttemptTimeout 2) (shut s)).room 2).path.nextAttempt = some ⟨5, 2⟩ := by decide +kernel

/-- R18: the rack word of period 1,920 may still pass the attempt, and the timeout waits for it. -/
theorem test_attempt_last_word :
    let s := inState .prove .proving fun p => { p with fitted := 63, seqCount := 1920, proofPos := some ⟨5, 1⟩ }
    let t := after (.rackWord 2 (some (0x2800000#32 + 419430#32))) (after (.pilotAttemptTimeout 2) s)
    (t.room 2).path.state = .ready ∧ (t.room 2).path.record[(5 : Chan)].result = .passed := by decide +kernel

/-- R53, R118: a GO_LIVE that comes after a period's chains have run belongs to the next period, whose chains run with the room in
LIVE. -/
theorem test_live_chain_of_entry :
    let s : State := (inState .ready .none fun p => { p with proven := true }).modRoom 2 fun rm => { rm with
      prog := rm.prog.set 0 1000 }
    let t := after (.go (msg 1 2) [3]) (after (.samplePeriod 0 close) s)
    let peak (s : State) : Nat := (s.room 2).meters[(0 : Chan)].peak
    t.periodOpen = true ∧ t.blockPos = 1 ∧ peak t = 0 ∧ peak (after (.samplePeriod 0 close) t) = 1000 := by decide +kernel

/-- R25, R53: a GO_STOP that comes after a period's chains have run parks the room in the next period: its frame carries 0. -/
theorem test_parked_after_period :
    let s : State := onAir.modRoom 2 fun rm => { rm with
      path := { rm.path with phase := .rampingIn, p := 32768, ramp := some ⟨0, 65536, 480, 240⟩ }, prog := rm.prog.set 0 1000 }
    let t := after (.samplePeriod 0 close) s
    let u := after (.samplePeriod 0 close) (after (.go (msg 1 2) [5]) t)
    t.rackFrame[32] ≠ 0x3000000#32 ∧ (u.room 2).path.state = .parked ∧ u.rackFrame[32] = 0x3000000#32 := by decide +kernel

/-- R25: the end of ramping-out-park. -/
theorem test_park_reached :
    let s := inState .live .rampingOutPark fun p => { p with ramp := some ⟨65536, 0, 480, 480⟩, proven := true }
    ((after (.pathRampEnd 2) s).room 2).path.state = .parked := by decide +kernel

/-- R15: settling ends in debouncing. -/
theorem test_settling_end :
    ((after (.settlingEnd 2) (inState .listen .settling fun p => { p with seqCount := 4800 })).room 2).path.phase = .debouncing := by
  decide +kernel

/-! ### Lanes and timecode (02) -/

/-- R213: −1 on a lane, valid, with its check bit; and the rack word's fields. -/
theorem test_lane_word : laneSample (laneWordOut (-1)) = -1 ∧ laneGood (laneWordOut (-1)) = true ∧
    laneCheckError (laneWordOut (-1) ^^^ 1#32) = true := by decide +kernel

/-- Chapter 12.7: from 2,399 to 2,401 is an advance; 12.10: from 173,000 back to 14,300 a jump. -/
theorem test_classify : classify (some 2399) 2401 = .advance 2401 ∧ classify (some 173000) 14300 = .jump 14300 ∧
    classify none 0 = .jump 0 := by decide +kernel

/-- Chapter 12.3: a timecode lane on the active map of a room in OFF makes the room LOST with an absence run of 2,400. -/
theorem test_source_map_in_off :
    let body := [0] ++ List.replicate 16 268435455#28 ++ [192]
    let t := after (.setSourceMap (msg 0 2) body) up
    reply t = some (.ok, []) ∧ (t.room 2).tc.state = .lost ∧ (t.room 2).tc.absence = 2400 := by decide +kernel

/-- R46: the absence run's 2,400th period makes the room LOST. -/
theorem test_timecode_loss :
    let s := room2 fun rm => { rm with tc := ⟨.running, some 7, 0, 2399, false⟩ }
    let t := after (.timecodeLoss 2) s
    (t.room 2).tc.state = .lost ∧ said t = [(some 2, .timecode .running .lost (some 7) (some 7) false)] := by decide +kernel

/-- R46: a period without a frame counts once; the loss comes with the next. -/
theorem test_timecode_once :
    let s := room2 fun rm => { rm with
      main := { rm.main with tc := some 40 }, tc := ⟨.running, some 7, 0, 2398, false⟩ }
    let t := after (.timecodeLoss 2) (after (.missingFeedFrame atOnce) s)
    ((t.room 2).tc.state, (t.room 2).tc.absence) = (.running, 2399) ∧
      ((after (.timecodeLoss 2) (after (.samplePeriod 0 close) t)).room 2).tc.state = .lost := by decide +kernel

/-- Chapter 12.10: the still run's 6,000th period makes the room STOPPED. -/
theorem test_timecode_stopped :
    let s := room2 fun rm => { rm with tc := ⟨.running, some 173000, 5999, 0, false⟩ }
    ((after (.timecodeStillExpiry 2 true) s).room 2).tc.state = .stopped := by decide +kernel

/-- R31, R189: a period without a frame breaks the assembly in progress and counts it. -/
theorem test_missing_frame_breaks :
    let s : State := { up with mgmt := { up.mgmt with asm := { Assembly.idle with stage := .awaitKind } } }
    (after (.missingFeedFrame atOnce) s).mgmt.malformed = 1 := by decide +kernel

/-- Room 2, not LIVE, with lanes 40 (MAIN) and 41 (SPARE), each for programme channel 0 and the timecode, after frame 2,400. -/
def twoSources (still absence : Nat) : State := room2 fun rm => { rm with
  main := ⟨(Vector.replicate 16 none).set 0 (some 40), some 40⟩
  spare := ⟨(Vector.replicate 16 none).set 0 (some 41), some 41⟩
  tc := ⟨.running, some 2400, still, absence, false⟩ }

/-- A frame with words on lanes 40 and 41 and nothing else good, which room 2 reads later in its period. -/
def laterFrame (w40 w41 : Word) : Instr :=
  .feedTrunkFrame (((Vector.replicate 256 0#32).set 40 w40).set 41 w41) (Vector.replicate 4 0#32) ⟨[], [2]⟩

/-- R34, R35, R41, R46: a source change of the period taken ahead of the room's words has them read from the new lane: a bad word of the
old lane counts nothing, and a bad word of the new one counts there, gives the hold value, and makes the absence 1. -/
theorem test_source_then_words :
    let good : Word := laneWordOut 2401
    let read (w40 w41 : Word) : State := after (.samplePeriod 0 close)
      (after (.selectSource (msg 1 2) [1]) (after (laterFrame w40 w41) (twoSources 0 0)))
    let new := read 0 good
    let old := read good 0
    ((new.room 2).prog[(0 : Chan)], (new.room 2).tc.last, (new.room 2).tc.absence, new.lanes[(40 : Lane)].usedErr) =
        (2401, some 2401, 0, 0) ∧
      ((old.room 2).prog[(0 : Chan)], (old.room 2).tc.last, (old.room 2).tc.absence, old.lanes[(41 : Lane)].usedErr) =
        (0, some 2400, 1, 1) := by decide +kernel

/-- R1, R41: a room reads its words where a SAMPLE_PERIOD that goes on names it, ahead of a source change that follows, and once. -/
theorem test_words_then_source :
    let asked := after (.samplePeriod 0 ⟨[2], false, [], false⟩) (after (laterFrame (laneWordOut 2401) 0) (twoSources 0 0))
    let t := after (.samplePeriod 0 close) (after (.selectSource (msg 1 2) [1]) asked)
    asked.waiting = [] ∧ asked.periodOpen = true ∧ (t.room 2).prog[(0 : Chan)] = 2401 ∧
      ((t.room 2).tc.last, (t.room 2).tc.absence) = (some 2401, 0) := by decide +kernel

/-- R46: TIMECODE_LOSS of a room that still has to read a good word changes nothing and its absence run ends with the word; with a bad
word the row takes the loss, and the period counts it once. -/
theorem test_loss_of_later_room :
    let s := twoSources 0 2399
    let given := after (laterFrame (laneWordOut 2401) 0) s
    let gone := after (laterFrame 0 0) s
    let t := after (.samplePeriod 0 close) (after (.timecodeLoss 2) gone)
    let kept := after (.timecodeLoss 2) given
    kept.waiting = [2] ∧ (kept.room 2).tc = (s.room 2).tc ∧ ((after (.samplePeriod 0 close) kept).room 2).tc.absence = 0 ∧
      ((t.room 2).tc.state, (t.room 2).tc.absence, t.lanes[(40 : Lane)].usedErr, said t) =
        (.lost, 2400, 1, [(some 2, .timecode .running .lost (some 2400) (some 2400) false)]) := by decide +kernel

/-- R45: the same of TIMECODE_STILL_EXPIRY: the room is STOPPED where its word gives the last frame again, and not where it advances. -/
theorem test_still_of_later_room :
    let s := twoSources 5999 0
    let given := after (laterFrame (laneWordOut 2401) 0) s
    let t := after (.samplePeriod 0 close) (after (.timecodeStillExpiry 2 true) (after (laterFrame (laneWordOut 2400) 0) s))
    let kept (same : Bool) := after (.timecodeStillExpiry 2 same) given
    ((kept true).waiting = [2] ∧ ((kept true).room 2).tc = (s.room 2).tc) ∧ (kept false).waiting = [2] ∧
      (t.room 2).tc.state = .stopped ∧ (t.room 2).tc.still = 6000 := by decide +kernel

/-- R32: a valid word with a wrong check bit counts on its lane and in the total. -/
theorem test_frame_check_error :
    let t := after (.feedTrunkFrame ((Vector.replicate 256 0#32).set 5 0x1000000#32) (Vector.replicate 4 0#32) atOnce) up
    t.checkTotal = 1 ∧ t.lanes[(5 : Fin 256)].checkErr = 1 := by decide +kernel

/-! ### Signal arithmetic (03) -/

/-- "A fade, a mute and an unmute": periods 1, 1,200 and 2,400 of the fade to step 35. -/
theorem test_fade_values : interp 65536 32768 4800 1 = 65530 ∧ interp 65536 32768 4800 1200 = 57344 ∧
    interp 65536 32768 4800 2400 = 49152 := by decide +kernel

/-- Chapter 12.10: the fade to step 60, halfway and at its end. -/
theorem test_fade_to_sixty : State.reset.law[(60 : Fin 101)] = 56173 ∧ interp 65536 56173 480000 240000 = 60855 := by
  decide +kernel

/-- SET_GAIN step 35 over 100 ms. -/
theorem test_set_gain :
    ((after (.setGain (msg 2 2) [35, 100]) up).room 2).gain = ⟨35, false, 65536, some ⟨65536, 32768, 4800, 0⟩⟩ := by
  decide +kernel

/-- The mute of the example: a fade over 480 from the present g. -/
theorem test_set_mute :
    let s := room2 fun rm => { rm with gain := ⟨35, false, 49152, some ⟨65536, 32768, 4800, 2400⟩⟩ }
    ((after (.setMute (msg 2 2) [1]) s).room 2).gain = ⟨35, true, 49152, some ⟨49152, 0, 480, 0⟩⟩ := by decide +kernel

/-- R61: a fade at its last step ends. -/
theorem test_fade_end :
    let s := room2 fun rm => { rm with gain := ⟨35, false, 32768, some ⟨65536, 32768, 4800, 4800⟩⟩ }
    ((after (.fadeEnd 2) s).room 2).gain.fade = none := by decide +kernel

/-- Chapter 12.9: SELECT_SOURCE SPARE in LIVE begins a descent. -/
theorem test_select_source_live :
    let t := after (.selectSource (msg 1 2) [1]) onAir
    (t.room 2).dip.stage = .descent ∧ (t.room 2).dip.srcSlot = some .spare ∧ (t.room 2).activeSource = .main := by decide +kernel

/-- Chapter 12.8: the bottom applies format and bank, and announces the swap. -/
theorem test_dip_bottom :
    let s := onAir.modRoom 2 fun rm => { rm with
      activeFormat := 1, dip := ⟨.descent, 240, 0, some 0, none, some .b, false⟩ }
    let t := after (.dipBottom 2) s
    (t.room 2).activeFormat = 0 ∧ (t.room 2).bankInService = .b ∧ (t.room 2).dip.stage = .ascent ∧
      said t = [(some 2, .bankSwapped .a .b)] := by decide +kernel

/-- R67: an ascent without a filled slot ends in IDLE. -/
theorem test_ascent_end :
    let s := onAir.modRoom 2 fun rm => { rm with dip := ⟨.ascent, 240, 65536, none, none, none, false⟩ }
    ((after (.dipAscentEnd 2) s).room 2).dip = .reset := by decide +kernel

/-- R59: LOAD_FADER_LAW writes its run and clamps it. -/
theorem test_fader_law :
    let t := after (.loadFaderLaw (msg 1 15) [99, 2, 5, 200000]) up
    reply t = some (.ok, []) ∧ t.law[(98 : Fin 101)] = 91750 ∧ t.law[(99 : Fin 101)] = 5 ∧ t.law[(100 : Fin 101)] = 131071 := by
  decide +kernel

/-! ### Surround decoding (04) -/

/-- The profile of "Two periods of decode". -/
def trailer : Profile :=
  { Profile.reset with
    loaded := 15
    rowL := Profile.reset.rowL.set 24 (4194304, -1048576)
    rowR := Profile.reset.rowR.set 24 (0, 2097152)
    rowC := (Profile.reset.rowC.set 20 (2097152, 2097152)).set 21 (2097152, 2097152)
    rowS := (Profile.reset.rowS.set 20 (1048576, -1048576)).set 21 (1048576, -1048576) }

/-- Period 1 of the example: the envelopes stay, the indices are 8 and 5, and the four outputs. -/
theorem test_decode_period_one :
    let st : DecodeState := ⟨600000, 200000, 400000, 200000, 8, 5⟩
    st.advance trailer 600000 200000 = st ∧
      [DecOut.l, .r, .c, .s].map (decodeOut trailer st 600000 200000) = [550000, 100000, 400000, 100000] := by decide +kernel

/-- Period 2 of the example. -/
theorem test_decode_period_two :
    let st := (⟨600000, 200000, 400000, 200000, 8, 5⟩ : DecodeState).advance trailer (-700000) 200000
    st = ⟨612500, 200000, 399707, 231250, 8, 4⟩ ∧
      [DecOut.l, .r, .c, .s].map (decodeOut trailer st (-700000) 200000) = [-750000, 100000, -250000, -225000] := by
  decide +kernel

/-- "The floor at work": below the floor the index stays; above it, 5. -/
theorem test_dominance_floor : dominance 2048 8 1000 500 = 8 ∧ dominance 1500 8 1000 500 = 5 := by decide +kernel

/-- Chapter 12.2: CLEAR_PROFILE 0 during the initialisation is NOT_READY; after it, accepted. -/
theorem test_clear_profile : reply (after (.clearProfile (msg 0 15) [0]) State.reset) = some (.notReady, []) ∧
    reply (after (.clearProfile (msg 0 15) [0]) up) = some (.ok, []) := by decide +kernel

/-- Chapter 12.3: the first row makes the profile PARTIAL (code 1). -/
theorem test_load_profile_row :
    let t := after (.loadProfileRow (msg 0 15) ([0, 2] ++ List.replicate 66 0xFFFFFF#28)) up
    reply t = some (.ok, [1]) ∧ t.profiles[(0 : Fin 4)].rowC[(32 : Fin 33)] = (-1, -1) := by decide +kernel

/-- R78: the clamps of SET_PROFILE_PARAMS. -/
theorem test_profile_params :
    let x := (after (.setProfileParams (msg 0 15) [1, 9000000, 0, 16]) up).profiles[(1 : Fin 4)]
    x.floor = 8388608 ∧ x.attack = 1 ∧ x.release = 15 := by decide +kernel

/-- Chapter 12.3: the room's first MX4 entry costs 40: commitment 40, committed total 40 here. -/
theorem test_format_entry :
    let body := [1, 1, 0, 16, 17, 18, 19, 19, 19, 19] ++ List.replicate 9 20#28
    let t := after (.setFormatEntry (msg 0 2) body) up
    (t.room 2).commitment = 40 ∧ t.committedTotal = 40 ∧ (reply t).map (·.1) = some .ok := by decide +kernel

/-- R73: a format whose profile is not READY is refused. -/
theorem test_select_format :
    let s := room2 fun rm => { rm with formats := rm.formats.set 1 { FormatEntry.reset with mode := .mx4 } }
    reply (after (.selectFormat (msg 1 2) [1]) s) = some (.wrongState, []) ∧
      ((after (.selectFormat (msg 1 2) [2]) s).room 2).activeFormat = 2 := by decide +kernel

/-! ### Room equalisation and the budget (05, 06) -/

/-- R89: UNITY, the strict tests, and the section of zeros. -/
theorem test_tags : (⟨4194304, 0, 0, 0, 0⟩ : Coefs).tag = .unity ∧ (⟨4194304, 0, 0, 0, 4194304⟩ : Coefs).tag = .rejected ∧
    (⟨0, 0, 0, 4194304, 0⟩ : Coefs).tag = .rejected ∧ (⟨0, 0, 0, 4194303, 0⟩ : Coefs).tag = .active ∧
    (⟨0, 0, 0, 0, 0⟩ : Coefs).tag = .active := by decide +kernel

/-- "Retuning room 3", step 2: three sections tagged ACTIVE, ACTIVE, UNITY add two to the count. -/
theorem test_load_sections :
    let body := [1, 2, 6, 3] ++ List.replicate 10 0#28 ++ [4194304, 0, 0, 0, 0]
    let t := after (.loadSections (msg 1 2) body) up
    (t.room 2).bankB.active = 2 ∧ (t.room 2).commitment = 2 ∧ ((t.room 2).bankB.chans[(2 : Fin 16)].slots.map (·.tag)) =
      #v[.empty, .empty, .empty, .empty, .empty, .active, .active, .unity] := by decide +kernel

/-- Step 1: a load of the bank in service is IN_SERVICE; step 5: of the bank in the slot, BANK_BUSY. -/
theorem test_bank_refusals :
    let s := onAir.modRoom 2 fun rm => { rm with dip := ⟨.descent, 3, 64716, none, none, some .b, false⟩ }
    reply (after (.clearBank (msg 1 2) [0]) s) = some (.inService, []) ∧
      reply (after (.copyBank (msg 1 2) [1]) s) = some (.bankBusy, []) := by decide +kernel

/-- R95: SET_TRIMS clamps a trim to 131,071. -/
theorem test_set_trims :
    let t := after (.setTrims (msg 1 2) ([1, 200000] ++ List.replicate 15 73000#28)) up
    ((t.room 2).bankB.chans[(0 : Fin 16)].trim, (t.room 2).bankB.chans[(15 : Fin 16)].trim) = (131071, 73000) := by decide +kernel

/-- Chapter 12.3: SELECT_BANK B in OFF swaps at once and announces it. -/
theorem test_select_bank : said (after (.selectBank (msg 0 2) [1]) up) = [(some 2, .bankSwapped .a .b)] := by decide +kernel

/-- "Filling the budget": a load above 1,280 is refused and changes nothing. -/
theorem test_over_budget :
    let s : State := { up with committedTotal := 1280 }
    let t := after (.loadSections (msg 1 2) ([1, 2, 6, 1] ++ List.replicate 5 0#28)) s
    (reply t).map (·.1) = some .overBudget ∧ (t.room 2).bankB = .cleared := by decide +kernel

/-! ### Meters and alarms (07) -/

/-- The entry list of a part with 47 ACTIVE entries after one CLEARED entry of room 0, channel 7, OVER ("A full alarm list"). -/
def fullList : List AlarmEntry :=
  ⟨0, .level 7 .over, false, 5, 5, 1, 8300000⟩ :: List.replicate 47 ⟨4, .level 0 .loss, true, 6, 6, 1, 0⟩

/-- Block 22,140: the CLEARED entry gives way and the new one is last; the next raising finds the list full of ACTIVE entries. -/
theorem test_full_alarm_list :
    let x := raiseList fullList 5 (.level 2 .clip) 22140 9000
    x.2 = some 1 ∧ x.1.length = 48 ∧ x.1.getLast? = some ⟨5, .level 2 .clip, true, 22140, 22140, 1, 9000⟩ ∧
      (raiseList x.1 5 (.level 3 .clip) 22140 9000).2 = none := by decide +kernel

/-- "Silence on the centre channel": a CLEARED entry is raised again in its place with raise count 2. -/
theorem test_raised_again :
    raiseList [⟨3, .level 1 .silence, false, 1003, 1003, 1, 0⟩] 3 (.level 1 .silence) 1008 3000 =
      ([⟨3, .level 1 .silence, true, 1003, 1008, 2, 3000⟩], some 2) := by decide +kernel

/-- Chapter 12.9: ACK_ALARM at level 2: one entry removed, one condition made HELD_ACK (6 and 7 bits). -/
theorem test_ack_alarm :
    let x : Cond := ⟨.raised, 0, false⟩
    let s : State := { (room2 fun rm => { rm with conds := rm.conds.set 1 { ChanConds.quiet with onSilence := x } }) with
      alarms := [⟨2, .level 1 .silence, true, 415221, 415221, 1, 0⟩] }
    let t := after (.ackAlarm (msg 2 2) [1, 0]) s
    t.alarms = [] ∧ (t.room 2).conds[(1 : Fin 16)].onSilence.phase = .heldAck ∧ reply t = some (.ok, [65]) := by decide +kernel

/-- R122: the hold of 0 is clamped to 1; an empty channel set is refused. -/
theorem test_set_alarm_entry :
    (((after (.setAlarmEntry (msg 1 2) [7, 9, 8389, 0, 8300000, 5, 8]) up).room 2).alarmTable[(2 : Fin 16)]).silenceHold = 1 ∧
      reply (after (.setAlarmEntry (msg 1 2) [0, 9, 8389, 0, 8300000, 5, 8]) up) = some (.badField, []) := by decide +kernel

/-- R128: SILENCE and LOSS for 50 blocks. -/
theorem test_mask : ((after (.maskAlarms (msg 1 2) [9, 50]) up).room 2).mask = ⟨9, 50⟩ := by decide +kernel

/-- R127, R12: a room halted on rack loss raises RACK at the block end. -/
theorem test_block_end_rack :
    let s : State := { (inState .halted .none fun p => { p with halt := .rackLost }) with
      blockPos := 480, blockEndDue := true, blockNumber := 7, periodOpen := false }
    let t := after (.meterBlockEnd []) s
    t.blockNumber = 8 ∧ t.alarms = [⟨2, .rack, true, 7, 7, 1, 0⟩] ∧
      said t = [(some 2, .alarmRaised .rack 0 0 (some 1))] := by decide +kernel

/-- R102, R119: in a block's last period the block end may come ahead of a dip's bottom; the block position begins again at 0. In
another period the order takes no block end. -/
theorem test_block_end_first :
    let s (pos : Nat) : State := { (onAir.modRoom 2 fun rm => { rm with dip := ⟨.descent, 240, 0, none, none, some .b, false⟩ }) with
      blockPos := pos, blockNumber := 7 }
    let t := after (.samplePeriod 0 closeFirst) (s 479)
    (t.room 2).bankInService = .b ∧ t.blockPos = 0 ∧ t.blockNumber = 8 ∧ t.blockEndDue = false ∧
      (let u := after (.samplePeriod 0 closeFirst) (s 478)
       (u.blockPos, u.blockNumber, u.blockEndDue) = (479, 7, false)) := by decide +kernel

/-- R53, R67, R74, R83, R118: a format applied at a bottom that follows the block end of its period is in force for the chain of that
period: the block has that chain's zero, and the decode state its first step from zeros (80,000 / 8). -/
theorem test_block_end_then_format :
    let s : State := { (onAir.modRoom 2 fun rm => { rm with
        prog := rm.prog.set 0 80000, formats := rm.formats.set 3 mx4Entry
        decode := ⟨7, 7, 7, 7, 0, 0⟩, dip := ⟨.descent, 240, 0, some 3, none, none, false⟩ }) with blockPos := 479 }
    let u := after (.samplePeriod 0 closeFirst) s
    (u.room 2).activeFormat = 3 ∧ (u.room 2).meters[(0 : Chan)] = ⟨0, 0, 0, 0, false⟩ ∧ (u.room 2).lastEval = some 0 ∧
      (u.room 2).decode.eL = 10000 ∧ (u.room 2).decode.eR = 0 := by decide +kernel

/-- R52, R118: the block that ends ahead of its last period's chains has their t and clips, and the next block begins without them. -/
theorem test_block_end_meters :
    let s : State := { (onAir.modRoom 2 fun rm => { rm with
        prog := rm.prog.set 0 8388607, gain := { rm.gain with g := 131071 } }) with blockPos := 479 }
    let u := after (.samplePeriod 0 closeFirst) s
    (u.room 2).meters[(0 : Chan)] = ⟨0, 0, 8388607, 1, false⟩ := by decide +kernel

/-- R74, R101: chains that come ahead of a bottom have the old bank and trim (80,000 at unity), and after it the new ones (40,000 at a
half); in either order the new format entry is in force for them, its decode state at its first step from zeros (80,000 / 8). -/
theorem test_chains_ahead_of_bottom :
    let standby : Bank := { Bank.cleared with chans := Bank.cleared.chans.set 0 { ChanEq.cleared with trim := 32768 } }
    let s := onAir.modRoom 2 fun rm => { rm with
      prog := rm.prog.set 0 80000, formats := rm.formats.set 3 ⟨.mx4, 2, FormatEntry.reset.map⟩, bankB := standby
      decode := ⟨7, 7, 7, 7, 0, 0⟩, dip := ⟨.descent, 240, 0, some 3, none, some .b, false⟩ }
    let ahead := after (.samplePeriod 0 close) (after (.samplePeriod 0 (chains [2])) s)
    let behind := after (.samplePeriod 0 close) s
    let sees (t : State) : BankName × Nat × DecodeState :=
      ((t.room 2).bankInService, (t.room 2).meters[(0 : Chan)].peak, { (t.room 2).decode with eS := 0, eD := 0, lr := 0, cs := 0 })
    let stepped : DecodeState := { DecodeState.zero with eL := 10000 }
    sees ahead = (.b, 80000, stepped) ∧ sees behind = (.b, 40000, stepped) := by decide +kernel

/-- R67, R74: the chains of a bottom's period have the new entry, also those put ahead of the bottom: the lanes carry the decode's zero,
where the old entry would carry the programme channel. -/
theorem test_format_of_chains_ahead :
    let s := onAir.modRoom 2 fun rm => { rm with
      prog := rm.prog.set 0 80000, formats := rm.formats.set 3 mx4Entry, dip := ⟨.descent, 240, 65536, some 3, none, none, false⟩ }
    let chained := after (.samplePeriod 0 (chains [2])) s
    let u := after (.samplePeriod 0 close) (after (.dipBottom 2) chained)
    u.rackFrame[32] = laneWordOut 0 ∧ (u.room 2).meters[(0 : Chan)].peak = 0 ∧ (u.room 2).decode.eL = 10000 ∧
      (after (.samplePeriod 0 close) (chained.modRoom 2 fun rm => { rm with dip := .reset })).rackFrame[32] = laneWordOut 80000 := by
  decide +kernel

/-- R119, R120, R129: a cue of a frame's timecode masks for one block; taken ahead of the period's block end the mask ends with it, and
taken after it the mask lasts through the next block. -/
theorem test_cue_after_block_end :
    let s : State := { (onAir.modRoom 2 fun rm => { rm with
      list := [⟨10, .at 2401, 2, [.mask 9 1]⟩], main := { rm.main with tc := some 40 }
      tc := ⟨.running, some 2400, 0, 0, false⟩ }) with blockPos := 479 }
    let word : Word := laneWordOut 2401
    let frame (later : List Room) : Instr := .feedTrunkFrame ((Vector.replicate 256 0#32).set 40 word) (Vector.replicate 4 0#32) ⟨[], later⟩
    let left (order : PeriodOrder) (later : List Room) : Nat :=
      ((after (.meterBlockEnd []) (after (.samplePeriod 0 order) (after (frame later) s))).room 2).mask.remaining
    left close [2] = 0 ∧ left closeFirst [] = 0 ∧ left closeFirst [2] = 1 := by decide +kernel

/-- R117, R118: in a block's last period METER_BLOCK_END is taken once the chains have run, and the period's close takes it no more. -/
theorem test_block_end_after_chains :
    let s : State := { onAir with blockPos := 479, blockNumber := 7 }
    let t := after (.meterBlockEnd []) (after (.samplePeriod 0 (chains [2])) s)
    (after (.meterBlockEnd []) s).blockNumber = 7 ∧ t.blockNumber = 8 ∧ t.periodOpen = true ∧
      (let u := after (.samplePeriod 0 close) t
       (u.blockNumber, u.blockPos, u.blockEndDue, u.blockEnded) = (8, 0, false, false)) := by decide +kernel

/-! ### Booth cues (08) -/

/-- A cue without actions. -/
def bare (number : Nat) (trigger : Trigger) : Cue := ⟨number, trigger, 2, []⟩

/-- The list of "One list through a rehearsal". -/
def rehearsal : List Cue :=
  [bare 100 (.at 0), bare 200 (.at 2400), bare 250 (.alarm .silence (.ch 1)), bare 300 (.at 2400), bare 400 (.at 60000),
    bare 500 .manual, bare 600 (.at 172800)]

/-- The example's runs and cursors: advance(2,400), jump(70,000), the return to 2,400, and advance(2,402) after the rewind. -/
theorem test_rehearsal :
    let at_ (n : Nat) (jump : Bool) (t : Nat) : Nat × List NoticeBody :=
      let s := inState .ready .none
      let u := s.modRoom 2 fun rm => { rm with list := rehearsal, cursor := n }
      let u := if jump then u.jumpTo 2 t else u.advanceTo 2 t
      ((u.room 2).cursor, (said u).map (·.2))
    at_ 1 false 2400 = (4, [.cueFired 200 (.at 2400) (.timecode false 2400), .cueFired 300 (.at 2400) (.timecode false 2400)]) ∧
      at_ 4 true 70000 = (6, []) ∧ (at_ 6 true 2400).1 = 4 ∧ (at_ 6 true 2400).2.length = 2 ∧
      at_ 4 false 2401 = (4, []) ∧ (at_ 0 false 2402).1 = 4 ∧ (at_ 0 false 2402).2.length = 3 := by decide +kernel

/-- Cue 700 of the failover example: its words (chapter 11.4) and what they decode to. -/
def failover : Cue :=
  ⟨700, .alarm .silence (.ch 1), 2,
    [.setSource .spare, .mask 9 20, .timerStart 0 .second 30 false 710, .contact 9 true]⟩

/-- Its ten words, written out from the layouts of chapter 11.4. -/
def failoverWords : List Payload :=
  [BitVec.ofNat 28 (700 + 2 * 65536 + 4 * 1048576), BitVec.ofNat 28 (67108864 + 16),
    BitVec.ofNat 28 (2 * 16777216 + 1), 0, BitVec.ofNat 28 (6 * 16777216 + 9), 20,
    BitVec.ofNat 28 (9 * 16777216 + 2 * 16 + 710 * 128), 30, BitVec.ofNat 28 (7 * 16777216 + 9), 1]

/-- "One cue entry": the words give the cue, the cue gives the words, and the body of the append has 11 words. -/
theorem test_cue_words : Cue.ofWords failoverWords = some failover ∧
    failover.words.map (BitVec.ofNat 28) = failoverWords ∧
    reply (after (.cueDraftAppend (msg 1 2) (1 :: failoverWords)) up) = some (.ok, [257]) := by decide +kernel

/-- Room 2 in LIVE with the failover list; outputs 2 and 9 owned by rooms 2 and 4. -/
def guarded : State :=
  let s := onAir.modRoom 2 fun rm => { rm with list := [failover, ⟨710, .manual, 1, [.contact 2 true]⟩] }
  { s with outputs := (s.outputs.set 2 ⟨some 2, false, .none⟩).set 9 ⟨some 4, false, .none⟩ }

/-- "Failover by alarm cue": the firing's notices, the dip, the mask, the timer and the output left alone. -/
theorem test_failover_fires :
    let t := after (.alarmHandover 2) { guarded with handovers := [⟨2, [.level 1 .silence]⟩] }
    t.handovers = [] ∧ (t.room 2).dip.srcSlot = some .spare ∧ (t.room 2).mask = ⟨9, 20⟩ ∧
      (t.room 2).timers[(0 : Fin 4)] = ⟨true, .second, 30, false, some 710, 1440000, false⟩ ∧ t.outputs[(9 : Fin 24)].on = false ∧
      said t = [(some 2, .cueFired 700 failover.trigger (.alarm (.level 1 .silence))),
        (some 2, .cueFailed 700 (.alarm (.level 1 .silence)) [(4, .notOwner)])] := by decide +kernel

/-- R156: a hand-over that ALARM_HANDOVER has not taken is taken by SAMPLE_PERIOD. -/
theorem test_handover_taken :
    let t := after (.samplePeriod 0 close) { guarded with handovers := [⟨2, [.level 1 .silence]⟩] }
    t.handovers = [] ∧ (t.room 2).dip.srcSlot = some .spare := by decide +kernel

/-- "An operator instead": CUE_GO of cue 710 at level 2 is DENIED, at level 1 accepted with no failed action. -/
theorem test_cue_go :
    reply (after (.cueGo (msg 2 2) [710]) guarded) = some (.denied, []) ∧
      reply (after (.cueGo (msg 1 2) [710]) guarded) = some (.ok, [710]) ∧
      (after (.cueGo (msg 1 2) [710]) guarded).outputs[(2 : Fin 24)].on = true := by decide +kernel

/-- R160: a cue of GO_PROVE and GO_LIVE in a room that is READY and proven: the second action fails with WRONG_STATE. -/
theorem test_prove_then_live :
    let c : Cue := ⟨7, .manual, 2, [.go .goProve, .go .goLive]⟩
    let s := (inState .ready .none fun p => { p with proven := true }).modRoom 2 fun rm => { rm with list := [c] }
    (s.fire 2 c (.cueGo 9)).failed = [(2, .wrongState)] ∧ (s.goJudge 2 .goLive).2 = .ok ∧
      ((s.goJudge 2 .goProve).1.goJudge 2 .goLive).2 = .seqBusy := by decide +kernel

/-- R163: a run stops at a cue that leaves the room in OFF, and goes on after one that has taken it out of OFF again. -/
theorem test_run_after_off :
    let off : Cue := ⟨1, .at 10, 2, [.go .goOff]⟩
    let back : Cue := ⟨1, .at 10, 2, [.go .goOff, .go .goListen]⟩
    let fired (c : Cue) : Nat :=
      (said ((inState .ready .none).fireRun 2 (.timecode false 10) [c, bare 2 (.at 10)])).countP fun n =>
        match n.2 with | .cueFired 2 _ _ => true | _ => false
    fired off = 0 ∧ fired back = 1 := by decide +kernel

/-- R165, R167: in the period of its expiry the timer still shows remaining 1, and the expiry is then taken. -/
theorem test_timer_runs_out :
    let s := (shut <| room2 fun rm => { rm with
      list := [bare 20 .manual], timers := rm.timers.set 0 ⟨true, .sample, 1, false, some 20, 1, false⟩ }).openPeriod
    (s.room 2).timers[(0 : Fin 4)] = ⟨true, .sample, 1, false, some 20, 1, true⟩ ∧
      ((after (.timerExpiry 2 0) s).room 2).timers[(0 : Fin 4)] = ⟨false, .sample, 1, false, some 20, 0, false⟩ := by
  decide +kernel

/-- "The list replaced": the orphaned timer stops and keeps its values. -/
theorem test_timer_orphan :
    let s := onAir.modRoom 2 fun rm => { rm with
      list := [failover], timers := rm.timers.set 0 ⟨true, .second, 30, false, some 710, 1, true⟩ }
    let t := after (.timerExpiry 2 0) s
    said t = [(some 2, .timerOrphan 0 710)] ∧
      (t.room 2).timers[(0 : Fin 4)] = ⟨false, .second, 30, false, some 710, 0, false⟩ := by decide +kernel

/-- R166: a timer of three frames. -/
theorem test_timer_start :
    ((after (.timerStart (msg 1 2) [1, 1, 3, 1, 20]) up).room 2).timers[(1 : Fin 4)] = ⟨true, .frame, 3, true, some 20, 6000, false⟩ := by
  decide +kernel

/-- R169: a stopped timer keeps its values. -/
theorem test_timer_stop :
    let s := room2 fun rm => { rm with timers := rm.timers.set 0 ⟨true, .second, 30, false, some 710, 9, false⟩ }
    ((after (.timerStop (msg 1 2) [0]) s).room 2).timers[(0 : Fin 4)] = ⟨false, .second, 30, false, some 710, 0, false⟩ := by
  decide +kernel

/-- "The store on a busy afternoon", step 4: ORDER with entry index 0. -/
theorem test_append_order :
    let s := room2 fun rm => { rm with draft := [bare 250 .manual] }
    reply (after (.cueDraftAppend (msg 1 2) [1, BitVec.ofNat 28 (240 + 1048576), BitVec.ofNat 28 (3 * 67108864),
      BitVec.ofNat 28 (5 * 16777216), 0]) s) = some (.order, [0]) := by decide +kernel

/-- Step 6: a commit whose AT frames fall is refused with the cue's number; a draft in order becomes the list. -/
theorem test_commit :
    let s := room2 fun rm => { rm with draft := [bare 1 .manual, bare 2 (.at 5000), bare 3 (.at 4000)] }
    let u := room2 fun rm => { rm with draft := rehearsal }
    reply (after (.cueCommit (msg 1 2) []) s) = some (.order, [3]) ∧
      ((after (.cueCommit (msg 1 2) []) u).room 2).list = rehearsal := by decide +kernel

/-- R145, R155: the draft empties, and CUE_REWIND answers with cursor 0 and the last frame (12.11). -/
theorem test_draft_clear_and_rewind :
    let s := room2 fun rm => { rm with draft := rehearsal, list := rehearsal, cursor := 6, tc := ⟨.running, some 14500, 0, 0, false⟩ }
    ((after (.cueDraftClear (msg 1 2) []) s).room 2).draft = [] ∧
      ((after (.cueRewind (msg 2 2) []) s).room 2).cursor = 0 := by decide +kernel

/-! ### Booth contacts (09) -/

/-- "The house lights of room 2": the console at level 2 is refused once the guard is 1. -/
theorem test_house_lights :
    let s (g : Fin 4) : State :=
      { (room2 fun rm => { rm with guard := g }) with outputs := up.outputs.set 0 ⟨some 2, true, .cue 2 100⟩ }
    (after (.setContact (msg 2 15) [0, 0]) (s 2)).outputs[(0 : Fin 24)] = ⟨some 2, false, .request 9⟩ ∧
      reply (after (.setContact (msg 2 15) [0, 0]) (s 1)) = some (.denied, []) := by decide +kernel

/-- The new owner: old owner 2, new owner 3. -/
theorem test_contact_owner :
    let s : State := { up with outputs := up.outputs.set 0 ⟨some 2, true, .none⟩ }
    (after (.setContactOwner (msg 1 15) [1, 0, 3]) s).outputs[(0 : Fin 24)].owner = some 3 := by decide +kernel

/-- R177: the 960th differing sample makes a RISE, counted and announced. -/
theorem test_contact_edge :
    let s : State := { up with inputsFresh := false, inputs := up.inputs.set 3 ⟨none, false, 959, 4, true, false⟩ }
    said (after (.contactEdge 3) s) = [(none, .contactIn 3 .rise none 5)] ∧ (after (.contactEdge 3) s).periodOpen = true := by
  decide +kernel

/-- R177, R178: a run that SAMPLE_PERIOD completes flips the level, and its notice and the owner's CONTACT cue follow. -/
theorem test_period_completes_edge :
    let s : State := { (onAir.modRoom 2 fun rm => { rm with list := [⟨20, .contact 15 .rise, 2, [.mute true]⟩] }) with
      inputsFresh := false, inputs := up.inputs.set 15 ⟨some 2, false, 959, 4, true, false⟩ }
    let t := after (.samplePeriod 0x8000 close) s
    t.inputs[(15 : Fin 16)] = ⟨some 2, true, 0, 5, true, false⟩ ∧ (t.room 2).gain.mute = true ∧
      said t = [(some 2, .contactIn 15 .rise (some 2) 5),
        (some 2, .cueFired 20 (.contact 15 .rise) (.contact 15 .rise))] := by decide +kernel

/-! ### In-band management (10, 11) -/

/-- Chapter 12.2: READ_PART during the initialisation: vendor 52h, part 1216h, revision 1, 12 rooms, budget 1,280. -/
theorem test_read_part :
    let w := (reply (after (.readPart (msg 0 15) []) State.reset)).map fun x => (x.1, x.2.map (·.toNat))
    w.map (·.1) = some .ok ∧ (w.bind (·.2[0]?)).map (· % 128) = some 82 ∧ (w.bind (·.2[0]?)).map (· / 128 % 8192) = some 4630 := by
  decide +kernel

/-- "A reply and a notice": the notice's START, header, snapshot and field words. -/
theorem test_notice_words :
    (Notice.message ⟨some (6, ⟨.live, .rampingIn, 1, .main, .a, 65530, .running, some 1200⟩), .roomState .ready, 0⟩).map
      (fun w => (w.1, w.2.toNat)) =
      [(true, 4 * 256 + 65536), (false, 1 + 6 * 32), (false, 4 + 4 * 8 + 1 * 128 + 1 * 2048), (false, 65530), (false, 1200),
        (false, 2)] := by decide +kernel

/-- The reply: class 0, addressee 9, declared length 0; kind code 21, result 0, tag 300. -/
theorem test_reply_words :
    ((after (.setGain (msg 2 6) [35, 100]) up).mgmt.holder.map Reply.message).map (·.map fun w => (w.1, w.2.toNat)) =
      some [(true, 9), (false, 21 + 300 * 2048)] := by decide +kernel

/-- "Admission of a dozen requests": the refusals while the line is asserted. -/
theorem test_admission :
    let s : State := { (room2 fun rm => { rm with guard := 1 }) with supply := true }
    (reply (after (.readRoom (msg 2 14) []) s)).map (·.1) = some .badRoom ∧
      reply (after (.setGain (msg 3 2) [35]) s) = some (.malformed, []) ∧
      reply (after (.setGain (msg 2 2) [35, 100]) s) = some (.denied, []) ∧
      reply (after (.setGain (msg 1 2) [35, 100]) s) = some (.supplyLow, []) ∧
      reply (after (.go (msg 1 2) [3]) s) = some (.supplyLow, []) ∧
      reply (after (.cueGo (msg 3 2) [710]) s) = some (.supplyLow, []) ∧
      reply (after (.setGuard (msg 2 2) [2]) s) = some (.denied, []) ∧
      reply (after (.engineRestart (msg 1 15) []) s) = some (.denied, []) := by decide +kernel

/-- R196: kind code 41 is MALFORMED; a booth message of kind 40 at level 0 is the restart. -/
theorem test_unknown_kind :
    reply (after (.unknownKindRequest (msg 0 15) 41 []) up) = some (.malformed, []) := by decide +kernel

/-- "A crowded trunk": a fifth request is discarded and announced, and 32 notices then wait. -/
theorem test_queue_overflow :
    let q : Request := ⟨5, 1, 21, 6, 101, [35, 100]⟩
    let s : State := { up with mgmt := { up.mgmt with
      queue := List.replicate 4 q, holder := some ⟨5, 6, .ok, 100, []⟩
      notices := List.replicate 31 ⟨none, .storeReady, 0⟩ } }
    let t := after (.boothMessage ⟨9, 2, 6, 205⟩ 21 [35, 100]) s
    t.mgmt.overflow = 1 ∧ t.mgmt.notices.length = 32 ∧
      said (after (.boothMessage ⟨9, 2, 6, 205⟩ 21 [35, 100]) s) = List.replicate 31 (none, .storeReady) ++
        [(none, .queueOverflow ⟨9, 2, 21, 6, 205, [35, 100]⟩)] := by decide +kernel

/-- R191, R203: four waiting requests show the hold mark (bit 28), also on EMPTY slots, with the check bit (bit 29). -/
theorem test_hold_mark :
    let q : Request := ⟨5, 1, 21, 6, 101, [35, 100]⟩
    let s : State := { up with outFresh := false, mgmt := { up.mgmt with queue := List.replicate 4 q } }
    (after .outboundFeedFrame s).outFrame[(0 : Fin 4)] = (after .outboundFeedFrame s).outFrame[(3 : Fin 4)] ∧
      ((after .outboundFeedFrame s).outFrame[(0 : Fin 4)]) ≠ ((after .outboundFeedFrame up).outFrame[(0 : Fin 4)]) := by
  decide +kernel

/-- R209: in the first sample period after a full reset the outbound frame is EMPTY with hold mark no, though a notice waits; after
the period the notice leaves. -/
theorem test_first_outbound_frame :
    let s := after (.missingFeedFrame atOnce) (after (.fullReset true) up)
    said s = [(none, .supply true)] ∧ (after .outboundFeedFrame s).outFrame = Vector.replicate 4 (slotWordOut 0 false 0) ∧
      said (after .outboundFeedFrame s) = said s ∧
      said (after .outboundFeedFrame (after (.missingFeedFrame atOnce) (after (.samplePeriod 0 close) s))) = [] := by decide +kernel

/-- R201: SET_GUARD answers with the old and the new guard. -/
theorem test_set_guard : reply (after (.setGuard (msg 1 2) [3]) up) = some (.ok, [14]) := by decide +kernel

/-- R206, R208: the initialisation and the restart end with their notices. -/
theorem test_store_and_restart_end :
    said (after .tableStoreInitEnd { up with store := .initialising 576 }) = [(none, .storeReady)] ∧
      said (after .restartEnd { up with restart := some 96 }) = [(none, .restarted)] := by decide +kernel

/-- R207: the restart answers, and every room is OFF with its guard kept. -/
theorem test_engine_restart :
    let t := after (.engineRestart (msg 0 15) []) onAir
    reply t = some (.ok, []) ∧ t.restart = some 0 ∧ (t.room 2).path.state = .off ∧ (t.room 2).path.proven = false ∧
      (t.room 2).guard = 2 := by decide +kernel

/-! ### The supply warning, the sample period and the full reset -/

/-- R27: a LIVE room takes phase supply-ramp; R28: the release says so. -/
theorem test_supply :
    let t := after (.supplyWarningAsserted [] true) onAir
    (t.room 2).path.phase = .supplyRamp ∧ said t = [(none, .supply true)] ∧
      said (after .supplyWarningReleased t) = [(none, .supply true), (none, .supply false)] := by decide +kernel

/-- R30, R210: a full reset with the line asserted. -/
theorem test_full_reset : (after (.fullReset true) onAir).supply = true ∧
    ((after (.fullReset true) onAir).room 2).path.state = .off := by decide +kernel

/-- R177: a sample period adds one to the change run of a line that differs from its stable level. -/
theorem test_sample_period :
    let s : State := { up with inputsFresh := false }
    ((after (.samplePeriod 8 close) s).inputs[(3 : Fin 16)].run, (after (.samplePeriod 8 close) s).blockPos) = (1, 1) := by
  decide +kernel

/-- The reads of one room, of the counters, of the meters, of the contacts: accepted from level 3. -/
theorem test_reads_accepted :
    let ok (i : Instr) : Bool := decide ((reply (after i up)).map (·.1) = some .ok)
    (ok (.readRoom (msg 3 2) []) && ok (.readCounts (msg 3 15) [0, 28]) && ok (.readMeters (msg 3 2) []) &&
      ok (.readAlarms (msg 3 15) [47, 8]) && ok (.readCues (msg 3 2) [1, 127, 4]) && ok (.readBank (msg 3 2) [1, 15]) &&
      ok (.readProfile (msg 3 15) [3, 3]) && ok (.readContacts (msg 3 15) [])) = true := by decide +kernel

/-- R37: a count of 29 lanes, or a range past lane 255, is refused. -/
theorem test_read_counts_range :
    reply (after (.readCounts (msg 3 15) [0, 29]) up) = some (.badField, []) ∧
      reply (after (.readCounts (msg 3 15) [250, 7]) up) = some (.badField, []) := by decide +kernel

/-! ### The premises of the statements can be met -/

/-- Requests with their rows, and a request that waits. -/
def gainAsk : Request := ⟨9, 1, 21, 2, 300, [35, 100]⟩

/-- The part with a Management Unit of another form. -/
def withMgmt (f : Mgmt → Mgmt) : State := { up with mgmt := f up.mgmt }

theorem hyp_StepRunsFrontCommand :
    ({ up with pending := [.outboundFeedFrame, .supplyWarningReleased] } : State).pending =
      .outboundFeedFrame :: [.supplyWarningReleased] ∧ up.pending = [] := by decide +kernel

theorem hyp_RequestTakenOrQueued :
    let queued (n : Nat) : State := withMgmt fun m => { m with
      queue := List.replicate n gainAsk, holder := some ⟨5, 6, .ok, 100, []⟩ }
    request? (.setGain (msg 1 2) [35, 100]) = some gainAsk ∧ up.listening ∧
      request? (.boothMessage (msg 1 2) 21 [35, 100]) = some gainAsk ∧
      (queued 3).periodOpen = true ∧ (queued 3).mgmt.asm.stage = .idle ∧ (queued 3).mgmt.queue.length < 4 ∧ (queued 3).mgmt.holder ≠ none ∧
      (queued 4).mgmt.asm.stage = .idle ∧ 4 ≤ (queued 4).mgmt.queue.length := by decide +kernel

theorem hyp_RefusalChangesNothing : (up.answer ⟨9, 3, 21, 2, 300, [35, 100]⟩).2.1 ≠ .ok := by decide +kernel

theorem hyp_MessageGatheredOrDiscarded :
    let start : Payload := BitVec.ofNat 28 (9 + 64 + 2 * 256)
    up.mgmt.asm = .idle ∧ up.periodOpen = true ∧ [(35 : Payload), 100].length = (start.extractLsb' 8 7).toNat ∧
      ([] : List Payload).length = ((9 : Payload).extractLsb' 8 7).toNat ∧
      (withMgmt fun m => { m with asm := { Assembly.idle with stage := .body } }).mgmt.asm.stage ≠ .idle := by decide +kernel

theorem hyp_NoticeJoinsOrIsCounted :
    let waiting (n : Nat) : State := withMgmt fun m => { m with notices := List.replicate n ⟨none, .storeReady, 0⟩ }
    (waiting 31).mgmt.notices.length < 32 ∧ 32 ≤ (waiting 32).mgmt.notices.length := by decide +kernel

theorem hyp_MalformedRefused :
    up.listening ∧ request? (.setGain (msg 1 2) [35]) = some ⟨9, 1, 21, 2, 300, [35]⟩ ∧
      72 < (List.replicate 73 (0 : Payload)).length ∧ Kind.ofCode 41 = none ∧ Kind.ofCode 0 = none ∧
      Kind.ofCode 21 = some .setGain ∧ Kind.lengthOk .setGain [35] = false ∧ 41 ≤ (41 : BitVec 6).toNat ∧
      (0 : BitVec 6).toNat = 0 := by decide +kernel

theorem hyp_RoomStoreAndSupplyRefused :
    let q (kind : BitVec 6) (room : BitVec 4) (body : List Payload) : Request := ⟨9, 1, kind, room, 300, body⟩
    (q 21 12 [35, 100]).formed = some .setGain ∧ Kind.setGain.form = .room ∧ 12 ≤ (12 : BitVec 4).toNat ∧
      (q 1 14 []).formed = some .readPart ∧ Kind.readPart.form = .none ∧ (14 : BitVec 4).toNat ≠ 15 ∧
      (q 5 12 [0, 1]).formed = some .readAlarms ∧ Kind.readAlarms.form = .roomOrNone ∧
      Kind.setGain.form.passes 11 = true ∧ State.reset.openPeriod.listening ∧ State.reset.openPeriod.store ≠ .ready ∧
      ({ up with restart := some 0 } : State).restart ≠ none ∧
      ({ up with supply := true } : State).readable ∧ gainAsk.formed = some .setGain ∧
      ({ up with supply := true } : State).levelPasses .setGain 2 gainAsk = true ∧ Kind.setGain ∉ readKinds := by
  decide +kernel

/-- Every class of step 4 has a request that its level does not meet. -/
theorem hyp_DeniedRefused :
    let s : State := { (room2 fun rm => { rm with guard := 1, list := [bare 700 .manual] }) with
      outputs := up.outputs.set 0 ⟨some 2, true, .none⟩ }
    let q (level : BitVec 2) (kind : BitVec 6) (room : BitVec 4) (body : List Payload) : Request :=
      ⟨9, level, kind, room, 300, body⟩
    s.listening ∧ s.readable ∧
      (q 2 21 2 [35, 100]).formed = some .setGain ∧ Kind.setGain.levelClass = .roomWrite ∧ (s.room 2).guard.val < 2 ∧
      (q 2 40 15 []).formed = some .engineRestart ∧ Kind.engineRestart.levelClass = .restart ∧
      (q 3 29 2 [1, 0]).formed = some .ackAlarm ∧ Kind.ackAlarm.levelClass = .acknowledge ∧
      (q 3 34 2 [700]).formed = some .cueGo ∧ Kind.cueGo.levelClass = .cueGate ∧
      findCue (s.room 2).list 700 = some (bare 700 .manual) ∧
      (q 2 39 15 [0, 1]).formed = some .setContact ∧ Kind.setContact.levelClass = .contact ∧
      s.outputs[(0 : Fin 24)].owner = some 2 ∧
      (q 2 38 15 [0, 1, 15]).formed = some .setContactOwner ∧ Kind.setContactOwner.levelClass = .partTable ∧
      (q 2 12 2 [2]).formed = some .setGuard ∧ Kind.setGuard.levelClass = .guard := by decide +kernel

/-- Requests that pass steps 1 to 5 with the first value outside a range that BadFieldsRefused names: of each level class but that of
the restart one, and of each arm's ranges. -/
theorem hyp_BadFieldsRefused :
    let pass (level : BitVec 2) (k : Kind) (room : BitVec 4) (body : List Payload) : Bool :=
      let q : Request := ⟨9, level, k.code, room, 300, body⟩
      decide (q.formed = some k ∧ k.form.passes q.room = true ∧ up.levelPasses k (q.room?.getD 0) q = true)
    up.listening ∧ up.readable ∧ up.supply = false ∧
      (pass 2 .go 2 [6] && pass 2 .setRoom 2 [0, 10, 9, 0] && pass 2 .setRoom 2 [0, 9, 9, 2] && pass 1 .setGuard 2 [4] &&
        pass 2 .setSourceMap 2 (List.replicate 18 256) && pass 2 .selectSource 2 [2] && pass 2 .selectBank 2 [2] &&
        pass 2 .setMute 2 [2] && pass 2 .clearBank 2 [2] && pass 2 .copyBank 2 [2] && pass 2 .setTrims 2 (List.replicate 17 2) &&
        pass 2 .selectFormat 2 [4] && pass 1 .clearProfile 15 [4] && pass 1 .setProfileParams 15 [4, 0, 0, 0] &&
        pass 2 .timerStop 2 [4] && pass 2 .setFormatEntry 2 ([0, 0] ++ List.replicate 17 16)) = true ∧
      (pass 1 .loadProfileRow 15 (3 :: 4 :: List.replicate 66 0) && pass 3 .readProfile 15 [3, 4] &&
        pass 1 .loadFaderLaw 15 [100, 2, 0, 0] && pass 2 .loadSections 2 ([0, 16, 1, 1] ++ List.replicate 5 0) &&
        pass 2 .setAlarmEntry 2 [65536, 0, 0, 0, 0, 0, 0] && pass 2 .ackAlarm 2 [17, 4] && pass 3 .cueGo 2 [10000] &&
        pass 2 .timerStart 2 [3, 2, 1, 1, 10000] && pass 1 .setContactOwner 15 [1, 24, 11] && pass 2 .setContact 15 [24, 1] &&
        pass 3 .readCounts 15 [229, 28] && pass 3 .readAlarms 15 [48, 1] && pass 3 .readCues 2 [0, 127, 5] &&
        pass 3 .readBank 2 [0, 16]) = true ∧
      request? (.go (msg 2 2) [6]) = some ⟨9, 2, Kind.go.code, 2, 300, [6]⟩ := by decide +kernel

/-- The bounds themselves. -/
theorem hyp_BadFieldsRefused_bounds :
    5 < (6 : Payload).toNat ∧ 1 < (2 : Payload).toNat ∧ min 8388607 (9 : Payload).toNat < min 8388607 (10 : Payload).toNat ∧
      3 < (4 : Payload).toNat ∧ (65536 : Payload).toNat % 65536 = 0 ∧ (17 : Payload).toNat ≠ 268435455 ∧
      (16 : Payload).toNat = 16 ∧ (5 : Payload).toNat ≠ 4 ∧ 9999 < (10000 : Payload).toNat ∧ 15 < (16 : Payload).toNat ∧
      23 < (24 : Payload).toNat ∧ 11 < (12 : Payload).toNat ∧ (12 : Payload).toNat ≠ 268435455 ∧
      (255 < arg (List.replicate 18 256) 17 ∧ arg (List.replicate 18 256) 17 ≠ 268435455) ∧
      (arg ([0, 0] ++ List.replicate 17 16) 1 = 0 ∧ 16 ≤ arg ([0, 0] ++ List.replicate 17 16) 18) ∧
      19 < arg (List.replicate 19 20) 18 ∧ 101 < arg [100, 2] 0 + arg [100, 2] 1 ∧ 9 < arg [0, 0, 8, 2] 2 + arg [0, 0, 8, 2] 3 ∧
      256 < arg [229, 28] 0 + arg [229, 28] 1 ∧ 47 < arg [48, 1] 0 ∧ 4 < arg [0, 127, 5] 2 ∧ 15 < arg [0, 16] 1 ∧
      3 < arg [3, 4] 1 := by decide +kernel

theorem hyp_ReadsAnswer :
    up.listening ∧ up.readable ∧ namesNone (msg 3 15) ∧ namesRoom (msg 3 11) 11 ∧
      (0 < (28 : Payload).toNat ∧ (28 : Payload).toNat ≤ 28 ∧ (228 : Payload).toNat + (28 : Payload).toNat ≤ 256) ∧
      (msg 3 15).room.toNat = ((none : Option Room).map (·.val)).getD 15 ∧
      (msg 3 11).room.toNat = ((some 11 : Option Room).map (·.val)).getD 15 ∧ (47 : Payload).toNat ≤ 47 ∧
      (8 : Payload).toNat ≤ 8 ∧ (127 : Payload).toNat ≤ 127 ∧ (4 : Payload).toNat ≤ 4 ∧
      BankName.ofCode (1 : Payload).toNat = some .b ∧ (15 : Payload).toNat = (15 : Chan).val ∧
      (3 : Payload).toNat = (3 : Fin 4).val ∧ Row.ofCode (3 : Payload).toNat = some .s := by decide +kernel

theorem hyp_OutboundSenderFills :
    let m : Reply := ⟨9, 21, .ok, 300, [1, 2, 3]⟩
    let n : Notice := ⟨some (2, (up.room 2).snapshot), .rackWake, 0⟩
    let w : OutWord := (false, 7)
    (withMgmt fun x => { x with sending := some ⟨true, [w, w, w, w, w]⟩ }).mgmt.sending = some ⟨true, w :: w :: w :: w :: w :: []⟩ ∧
      m.message.length = 5 ∧ n.message.length = 5 ∧
      (withMgmt fun x => { x with holder := some m }).mgmt.holder = some m ∧
      (withMgmt fun x => { x with notices := [n] }).mgmt.notices = n :: [] ∧
      up.mgmt.sending = none ∧ up.mgmt.holder = none ∧ up.mgmt.notices = [] ∧ up.mgmt.queue = [] ∧
      up.outFresh = true ∧ ({ up with outFresh := false } : State).outFresh = false ∧ up.periodOpen = true ∧
      (0 < (pack [.word 5]).length ∧ 27 < 28) ∧
      (withMgmt fun x => { x with sending := some ⟨false, [w]⟩ }).mgmt.sending = some ⟨false, [w]⟩ ∧
      (withMgmt fun x => { x with sending := some ⟨true, [w]⟩, holder := some m, queue := [gainAsk] }).mgmt.queue =
        gainAsk :: [] := by decide +kernel

theorem hyp_FeedFramesTakeLanes :
    let form (w : Word) : Nat := w.toNat / 2 ^ 30
    let ones (w : Word) : Nat := (List.range 32).countP fun i => w.toNat.testBit i
    (∀ i : Fin 4, slotForm (Vector.replicate 4 (0#32))[i] = 0) ∧ up.mgmt.asm.stage = .idle ∧
      (∀ r : Room, (up.openPeriod.takeWaiting.room r).tc.state = .absent) ∧
      (let f := inState .ready .none |>.modRoom 2 fun rm => { rm with
         main := { rm.main with tc := some 40 }, tc := ⟨.lost, none, 0, 2400, false⟩ }
       let u := after (.feedTrunkFrame (Vector.replicate 256 (0x01800000#32 ||| 0x20000000#32)) (Vector.replicate 4 0#32) atOnce) f
       (u.room 2).tc.state = .running ∧ (u.room 2).tc.last = some 0x800000 ∧
         ((after (.missingFeedFrame atOnce) (shut u)).room 2).tc.absence = 1) ∧ form 0x3FFFFFFF = 0 ∧ form 0xC0000000 = 3 ∧
      (form 0x40000001 = 1 ∧ ones 0x40000001 % 2 = 0) ∧ (form 0x90000000 = 2 ∧ ones 0x90000000 % 2 = 0) ∧
      form 0x80000000 = 2 ∧ ones 0x80000000 % 2 ≠ 0 := by decide +kernel

/-- A room that waits with a bad word on its lane reads it, and the lane counts its concealment. -/
theorem hyp_FeedFramesTakeLanes_later :
    let s := after (laterFrame 0 (laneWordOut 5)) (twoSources 0 0)
    let used (l : Lane) : Prop := (s.room 2).activeMap.tc = some l ∨ ∃ c : Chan, (s.room 2).activeMap.prog[c] = some l
    2 ∈ s.waiting ∧ 3 ∉ s.waiting ∧ used 40 ∧ ¬used 41 ∧ laneGood s.words[(40 : Lane)] = false ∧ s.lanes[(40 : Lane)].concealed = false ∧
      laneGood s.words[(41 : Lane)] = true ∧ (s.readWords 2).lanes[(40 : Lane)].concealed = true ∧
      (s.readWords 2).waiting = [] ∧ ((s.readWords 2).room 2).tc.taken = true := by decide +kernel

theorem hyp_TimecodeMoves :
    let s (still absence : Nat) : State := room2 fun rm => { rm with tc := ⟨.running, some 7, still, absence, false⟩ }
    (s 0 2399).periodOpen = true ∧ (up.room 2).tc.state = .absent ∧ ((s 0 2399).room 2).tc.state = .running ∧ ((s 0 2399).room 2).tc.absence = 2399 ∧ ((s 0 2399).room 2).tc.taken = false ∧
      ((after (.missingFeedFrame atOnce) (s 0 0)).room 2).tc.taken = true ∧
      ((s 5999 2398).room 2).tc.still = 5999 ∧ ((s 5999 2398).room 2).tc.last ≠ none ∧
      ((s 5999 2398).room 2).tc.absence < 2399 ∧ 2 ∉ (s 0 2399).waiting := by decide +kernel

/-- A room that still has to read its word, given a value, none, and the last frame. -/
theorem hyp_TimecodeMoves_later :
    let s (w : Word) (still absence : Nat) : State := after (laterFrame w 0) (twoSources still absence)
    let given (s : State) : Option Nat := match (s.room 2).activeMap.tc with
      | some l => if laneGood s.words[l] then some (s.words[l].toNat % 16777216) else none
      | none => none
    let open2 (s : State) : Prop := s.periodOpen = true ∧ 2 ∈ s.waiting ∧ (s.room 2).tc.state = .running ∧ (s.room 2).tc.taken = false
    let good : Word := laneWordOut 2401
    let same : Word := laneWordOut 2400
    open2 (s good 0 2399) ∧ given (s good 0 2399) ≠ none ∧ given (s good 5999 0) ≠ ((s good 5999 0).room 2).tc.last ∧
      open2 (s 0 0 2399) ∧ given (s 0 0 2399) = none ∧ ((s 0 0 2399).room 2).tc.absence = 2399 ∧
      open2 (s same 5999 0) ∧ given (s same 5999 0) = ((s same 5999 0).room 2).tc.last ∧
      ((s same 5999 0).room 2).tc.still = 5999 ∧ ((s same 5999 0).room 2).tc.last ≠ none ∧
      open2 (s 0 5999 2398) ∧ given (s 0 5999 2398) = none ∧ ((s 0 5999 2398).room 2).tc.absence < 2399 := by decide +kernel

theorem hyp_SourceMapWritten :
    let m : SourceMap := ⟨Vector.replicate 16 none, some 255⟩
    let body : List Payload := [0] ++ List.replicate 16 268435455#28 ++ [255]
    onAir.admits (msg 1 2) 2 ∧ up.admits (msg 2 2) 2 ∧ body.length = 18 ∧ Source.ofCode (arg body 0) = some .main ∧
      (∀ c : Chan, belowOrNone 256 (arg body (1 + c.val)) = some m.prog[c]) ∧ belowOrNone 256 (arg body 17) = some m.tc ∧
      ((onAir.room 2).activeSource = .main ∧ (onAir.room 2).path.state ≠ .off) ∧ (up.room 2).activeSource ≠ .spare ∧
      ((up.room 2).activeSource = .main ∧ (up.room 2).path.state = .off) ∧ (0 : Lane) ≠ 255 := by decide +kernel

theorem hyp_RackWordCounts :
    let present : Word := 0x2000000#32
    let wake : Word := 0x3000000#32
    let s := inState .listen .debouncing fun p => { p with seqCount := 11998 }
    up.periodOpen = true ∧ (up.room 2).path.state = .off ∧ (s.room 2).path.phase = .debouncing ∧ (s.room 2).path.debounceHeld = false ∧
      (RackWord.ofFrame none).present = false ∧ (RackWord.ofFrame (some present)).present = true ∧
      (s.room 2).path.seqCount + 1 < 12000 ∧ (onAir.room 2).path.state = .live ∧
      (onAir.room 2).path.rackAbsence + 1 < 2400 ∧ (RackWord.ofFrame (some wake)).wake = true ∧
      ((inState .parked .none).room 2).path.lastRack.wake = false ∧
      ((inState .listen .debouncing fun p => { p with debounceHeld := true }).room 2).path.debounceHeld = true ∧
      ((inState .prove .proving fun p => { p with seqCount := 1919 }).room 2).path.seqCount < 1920 ∧
      (RackWord.ofWord present).valid = false ∧ ((inState .prove .proving).room 2).path.seqCount = 0 ∧
      ((inState .prove .proving fun p => { p with nextAttempt := some ⟨5, 2⟩ }).room 2).path.nextAttempt ≠ none ∧
      (RackWord.ofWord 0x1000000#32).wake = true ∧ (RackWord.ofWord 0x1000000#32).present = false := by decide +kernel

/-- A room whose rack has been absent for 2,399 words. -/
def nearLoss (st : RoomState) (ph : Phase) : State := inState st ph fun p => { p with rackAbsence := 2399 }

theorem hyp_RackLossHalts :
    ((nearLoss .live .none).room 2).path.state = .live ∧ ((nearLoss .parked .none).room 2).path.state = .parked ∧
      (nearLoss .live .none).periodOpen = true ∧ (RackWord.ofFrame none).present = false ∧
      2399 ≤ ((nearLoss .live .none).room 2).path.rackAbsence ∧
      ((nearLoss .live .none).room 2).path.rackTaken = false ∧ ((nearLoss .live .none).room 2).dip.stage = .idle ∧
      (let d := (nearLoss .live .none).modRoom 2 fun rm => { rm with dip := ⟨.descent, 3, 64716, none, none, some .b, false⟩ }
       (d.room 2).path.state = .live ∧ 2399 ≤ (d.room 2).path.rackAbsence ∧ (d.room 2).dip.stage ≠ .idle) := by decide +kernel

theorem hyp_RackLossReturnsToListen :
    (nearLoss .ready .none).periodOpen = true ∧ ((nearLoss .ready .none).room 2).path.state = .ready ∧ ((nearLoss .prove .proving).room 2).path.state = .prove ∧
      ((nearLoss .ready .none).room 2).path.rackTaken = false ∧
      2399 ≤ ((nearLoss .ready .none).room 2).path.rackAbsence ∧ (nearLoss .ready .none).mgmt.notices.length ≤ 30 := by
  decide +kernel

theorem hyp_DebounceCompletes :
    let s := inState .listen .debouncing fun p => { p with seqCount := 11999 }
    s.periodOpen = true ∧ (s.room 2).path.state = .listen ∧ (s.room 2).path.phase = .debouncing ∧ (s.room 2).path.rackTaken = false ∧
      (s.room 2).path.debounceHeld = false ∧ 11999 ≤ (s.room 2).path.seqCount ∧ (RackWord.ofWord 0x2000000#32).present = true ∧ s.mgmt.notices.length ≤ 30 := by
  decide +kernel

/-- Room 2 in PROVE at period 1,920 of an attempt on channel 5 of the fitted set 0 to 6. -/
def proof (n : Nat) : State :=
  inState .prove .proving fun p => { p with fitted := 127, seqCount := 1920, proofPos := some ⟨5, n⟩, policy := .stopAtFirst }

theorem hyp_PilotAttemptEnds :
    let w : Word := 0x2800000#32 + 419430#32
    ((proof 2).room 2).path.state = .prove ∧ ((proof 2).room 2).path.nextAttempt = none ∧
      ((proof 2).room 2).path.proofPos = some ⟨5, 2⟩ ∧ ((proof 3).room 2).path.proofPos = some ⟨5, 3⟩ ∧
      1920 ≤ ((proof 3).room 2).path.seqCount ∧ ((proof 3).room 2).path.policy = .stopAtFirst ∧
      ((proof 3).room 2).path.isFitted 5 = true ∧ (RackWord.ofWord w).present = true ∧ (RackWord.ofWord w).valid = true ∧
      ((proof 3).room 2).path.proofMin ≤ (RackWord.ofWord w).level ∧
      (RackWord.ofWord w).level ≤ ((proof 3).room 2).path.proofMax ∧ (5 : Chan) < 6 ∧
      ((proof 3).room 2).path.isFitted 6 = true ∧ (∀ i : Chan, 5 < i → i < 6 → ((proof 3).room 2).path.isFitted i = false) ∧
      (∀ j : Chan, 6 < j → ((proof 3).room 2).path.isFitted j = false) ∧
      (((proof 3).modPath 2 fun p => { p with policy := .testAll }).room 2).path.policy = .testAll ∧
      (RackWord.ofWord (0x800000#32 + 419430#32)).present = false ∧ (RackWord.ofWord (0x800000#32 + 419430#32)).valid = true ∧
      ((proof 3).room 2).path.rackAbsence + 1 < 2400 ∧ (shut (proof 3)).periodOpen = false ∧
      (proof 3).periodOpen = true ∧ (RackWord.ofWord 0x2000000#32).valid = false ∧
      (RackWord.ofWord (0x2800000#32 + 419429#32)).level < ((proof 3).room 2).path.proofMin ∧
      ((proof 3).room 2).path.proofMax < (RackWord.ofWord (0x2800000#32 + 1258292#32)).level := by decide +kernel

theorem hyp_CountsRunOut :
    let s := inState .listen .settling fun p => { p with seqCount := 4800 }
    let f : Fade := ⟨65536, 0, 480, 480⟩
    let u := onAir.modRoom 2 fun rm => { rm with
      gain := { rm.gain with fade := some f }, dip := ⟨.ascent, 240, 65536, none, some .spare, none, true⟩ }
    (s.room 2).path.phase = .settling ∧ 4800 ≤ (s.room 2).path.seqCount ∧ (u.room 2).gain.fade = some f ∧ f.len ≤ f.n ∧
      (u.room 2).dip.stage = .ascent ∧ 240 ≤ (u.room 2).dip.step ∧
      ({ up with store := .initialising 576 } : State).store = .initialising 576 ∧
      ({ up with restart := some 96 } : State).restart = some 96 ∧ up.supplyDue = false ∧ up.blockEndDue = false ∧
      (∀ r : Room, (up.room r).path.attemptOver = none) ∧ up.periodOpen = true ∧ (shut up).periodOpen = false ∧
      ((inState .prove .proving fun p => { p with nextAttempt := some ⟨5, 2⟩ }).overdue.room 2).path.nextAttempt = some ⟨5, 2⟩ ∧
      (u.overdue.room 2).gain.fade = some f ∧ (u.overdue.room 2).dip.stage = .ascent ∧
      ((inState .live .rampingIn fun p => { p with ramp := some ⟨0, 65536, 480, 3⟩ }).overdue.room 2).path.ramp =
        some ⟨0, 65536, 480, 3⟩ := by decide +kernel

/-- The last period of a block, with the chains of its one LIVE room run, is ready for its block end; before them it is not. -/
theorem hyp_UntimelyEventsWait_early :
    let s : State := { onAir with blockPos := 479 }
    let ready (s : State) : Prop := s.periodOpen = true ∧ s.blockPos = 479 ∧ s.blockEndDue = false ∧
      ∀ q : Room, (s.room q).path.state = .live ∨ (s.room q).path.state = .parked → (s.room q).ahead ≠ none ∧
        (s.room q).formatDue = false
    ¬ready s ∧ ready (after (.samplePeriod 0 (chains [2])) s) := by decide +kernel

theorem hyp_UntimelyEventsWait :
    let p : Word := 0x2000000#32
    let tc (still absence : Nat) : State := room2 fun rm => { rm with tc := ⟨.running, some 7, still, absence, false⟩ }
    up.periodOpen = true ∧ up.settlingDue 2 = false ∧ up.rampDue 2 = false ∧ up.fadeDue 2 = false ∧
      up.bottomDue 2 = false ∧ up.ascentDue 2 = false ∧ up.timerDue 2 0 = false ∧ up.edgeDue 0 = false ∧ up.storeDue = false ∧
      up.restartDue = false ∧ up.blockEndDue = false ∧ (shut up).periodOpen = false ∧
      (up.room 2).path.attemptOver = none ∧ (∀ x ∈ up.openPeriod.handovers, x.room ≠ 2) ∧
      (∃ x ∈ ({ up with handovers := [⟨2, [.rack]⟩] } : State).openPeriod.handovers, x.room = 2) ∧
      (State.debounceDue 2 (RackWord.ofWord p) (inState .listen .debouncing fun p => { p with seqCount := 11999 }).openPeriod = true ∧
        State.debounceDue 2 (RackWord.ofWord p) up.openPeriod = false) ∧
      (State.rackLossDue 2 (RackWord.ofFrame none) (inState .live .none fun p => { p with rackAbsence := 2399 }).openPeriod = true ∧
        State.rackLossDue 2 (RackWord.ofFrame none) up.openPeriod = false) ∧
      (State.lossDue 2 (tc 0 2399).openPeriod = true ∧ State.lossDue 2 up.openPeriod = false) ∧
      (State.stillDue 2 false (tc 5999 2398).openPeriod = true ∧ State.stillDue 2 true up.openPeriod = false) ∧
      (State.lossDue 2 (after (laterFrame 0 0) (twoSources 0 2399)) = true ∧
        State.lossDue 2 (after (laterFrame (laneWordOut 2401) 0) (twoSources 0 2399)) = false) := by
  decide +kernel

/-- Nine events come due as the next period opens. -/
theorem hyp_UntimelyEventsWait_opening :
    let s := shut <| inState .listen .settling fun p => { p with seqCount := 4799 }
    let q := shut <| inState .live .rampingIn fun p => { p with ramp := some ⟨0, 65536, 480, 479⟩ }
    let g := shut <| room2 fun rm => { rm with
      gain := { rm.gain with fade := some ⟨65536, 0, 480, 479⟩ }
      timers := rm.timers.set 0 ⟨true, .sample, 1, false, some 20, 1, false⟩ }
    let d (st : DipStage) : State := shut <| onAir.modRoom 2 fun rm => { rm with dip := { rm.dip with stage := st, step := 239 } }
    let i : State := { shut up with inputsFresh := false, inputs := up.inputs.set 3 ⟨none, false, 959, 4, true, false⟩ }
    let b : State := { shut up with store := .initialising 575 }
    let e : State := { shut up with restart := some 95 }
    (s.settlingDue 2 = false ∧ s.openPeriod.settlingDue 2 = true) ∧
      (q.rampDue 2 = false ∧ q.openPeriod.rampDue 2 = true) ∧ (g.fadeDue 2 = false ∧ g.openPeriod.fadeDue 2 = true) ∧
      ((d .descent).bottomDue 2 = false ∧ (d .descent).openPeriod.bottomDue 2 = true) ∧
      ((d .ascent).ascentDue 2 = false ∧ (d .ascent).openPeriod.ascentDue 2 = true) ∧
      (g.timerDue 2 0 = false ∧ g.openPeriod.timerDue 2 0 = true) ∧ i.openPeriod.edgeDue 3 = true ∧
      (shut up).openPeriod.edgeDue 3 = false ∧ (b.storeDue = false ∧ b.openPeriod.storeDue = true) ∧
      (e.restartDue = false ∧ e.openPeriod.restartDue = true) := by decide +kernel

theorem hyp_PathRampEnds :
    let s (ph : Phase) (p1 len : Nat) : State :=
      inState .live ph fun p => { p with proven := true, ramp := some ⟨65536 - p1, p1, len, len⟩ }
    (s .rampingIn 65536 480).periodOpen = true ∧ ((s .rampingIn 65536 480).room 2).path.ramp = some ⟨0, 65536, 480, 480⟩ ∧
      ((s .rampingOutPark 0 480).room 2).path.phase = .rampingOutPark ∧
      ((s .rampingOutOff 0 480).room 2).path.phase = .rampingOutOff ∧ ((s .supplyRamp 0 192).room 2).path.state = .live ∧
      (((s .supplyRamp 0 192).modRoom 2 fun rm => { rm with dip := ⟨.descent, 3, 64716, none, none, some .b, false⟩ }).room 2).dip.stage ≠
        .idle := by
  decide +kernel

theorem hyp_GoJudgedByStateAndPhase :
    let s (st : RoomState) (ph : Phase) (supply : Bool) : State := { inState st ph with supply := supply }
    (up.goJudge 2 .goLive).2 = .wrongState ∧ ((s .prove .proving false).goJudge 2 .goLive).2 = .seqBusy ∧
      ((s .ready .none true).goJudge 2 .goProve).2 = .supplyLow ∧ up.listening ∧ up.readable ∧ up.mayWrite (msg 2 2) 2 ∧
      (s .ready .none true).listening ∧ (s .ready .none true).readable ∧ (s .ready .none true).mayWrite (msg 2 2) 2 := by
  decide +kernel

theorem hyp_GoForwardAccepted :
    let s := inState .ready .none fun p => { p with fitted := 0x8000 }
    let e := inState .ready .none fun p => { p with fitted := 0 }
    let v := inState .ready .none fun p => { p with proven := true }
    (∀ x ∈ [up, s, e, v, inState .parked .none, onAir], x.admits (msg 2 2) 2) ∧ (up.room 2).path.state = .off ∧
      (s.room 2).path.isFitted 15 = true ∧ (∀ j : Chan, j < 15 → (s.room 2).path.isFitted j = false) ∧
      (e.room 2).path.fitted = 0#16 ∧ (e.room 2).path.phase = .none ∧ (v.room 2).path.proven = true ∧
      (onAir.room 2).path.phase = .none := by
  decide +kernel

theorem hyp_GoOffAndStopAccepted :
    let low (st : RoomState) (ph : Phase) : State := { inState st ph with supply := true }
    let dip := (low .live .rampingIn).modRoom 2 fun rm => { rm with dip := ⟨.descent, 3, 64716, none, some .spare, some .b, false⟩ }
    (dip.listening ∧ dip.readable ∧ dip.mayWrite (msg 2 2) 2 ∧ (dip.room 2).path.phase = .rampingIn ∧ (dip.room 2).dip.stage ≠ .idle) ∧
    (∀ x ∈ [(RoomState.off, Phase.none), (.listen, .settling), (.listen, .debouncing), (.ready, .none), (.prove, .proving),
        (.live, .none), (.live, .rampingIn), (.live, .rampingOutPark), (.live, .rampingOutOff), (.live, .supplyRamp),
        (.parked, .none), (.halted, .none)],
      (low x.1 x.2).listening ∧ (low x.1 x.2).readable ∧ (low x.1 x.2).mayWrite (msg 2 2) 2 ∧
        ((low x.1 x.2).room 2).path.state.hasPhase ((low x.1 x.2).room 2).path.phase = true) := by decide +kernel

theorem hyp_RoomFieldsWritten :
    up.admits (msg 2 2) 2 ∧ 1 < (2 : Payload).toNat ∧ min 8388607 (8388606 : Payload).toNat < min 8388607 (8388608 : Payload).toNat ∧
      Policy.ofCode (1 : Payload).toNat = some .testAll ∧ min 8388607 (8388609 : Payload).toNat ≤ min 8388607 (8388608 : Payload).toNat ∧
      (up.room 2).path.state = .off ∧ (onAir.room 2).path.state = .live ∧ onAir.admits (msg 2 2) 2 ∧
      (3 : Payload).toNat = (3 : Fin 4).val ∧ up.operational ∧ namesRoom (msg 3 2) 2 ∧
      (msg 3 2).level.toNat ≤ ((room2 fun rm => { rm with guard := 3 }).room 2).guard.val ∧
      (msg 3 2).level.toNat ≤ (3 : Fin 4).val := by decide +kernel

theorem hyp_SupplyWarningActs :
    up.periodOpen = true ∧ up.supply = false ∧ up.supplyDue = false ∧ ({ up with supply := true } : State).supply = true ∧
      (State.reset.fullReset true).supplyDue = true := by decide +kernel

theorem hyp_ScaleRounds :
    let c : Coefs := ⟨8388607, -8388608, 0, 1, 2⟩
    let h : Hist := ⟨-8388608, 8388607, 0, 5⟩
    ∀ y ∈ [c.b0, c.b1, c.b2, c.a1, c.a2, 8388607, h.x1, h.x2, h.y1, h.y2], |y| ≤ 2 ^ 23 := by decide +kernel

theorem hyp_ChainTransparentAndInRange :
    (∀ i : Fin 8, ChanEq.cleared.slots[i].tag ≠ .active) ∧ ChanEq.cleared.trim = 65536 ∧ (-8388608 : Int) ≤ -8388608 ∧
      (65536 : Nat) ≤ 65536 ∧
      (let ch : ChanEq := ⟨ChanEq.cleared.slots.set 3 ⟨⟨0, 0, 0, 0, 0⟩, .active⟩, ChanEq.cleared.trim⟩
       ch.slots[(3 : Fin 8)].tag = .active ∧ ∀ j : Fin 8, j ≠ 3 → ch.slots[j].tag ≠ .active) ∧
      (onAir.room 2).path.state = .live ∧ mx4Entry.mode = .mx4 ∧ (up.room 2).path.state ≠ .live ∧ (onAir.room 2).ahead = none ∧
      ((after (.samplePeriod 0 (chains [2])) onAir).room 2).ahead ≠ none ∧
      (up.room 2).path.state ≠ .parked ∧
      (let c : Coefs := ⟨2097152, 0, 0, 0, 0⟩
       let ch : ChanEq := ⟨(ChanEq.cleared.slots.set 1 ⟨c, .active⟩).set 6 ⟨c, .active⟩, 65536⟩
       (chain ch (Vector.replicate 8 ⟨0, 0, 0, 0⟩) 65536 65536 65536 1000).w = 250) := by decide +kernel

theorem hyp_ValuesStayInRange :
    (0 < 192 ∧ 192 ≤ 192) ∧ (240 ≤ 240) ∧ ((0 : Int) ≤ 8388608 ∧ (8388608 : Int) ≤ 8388608) ∧ ((0 : Int) < 1 ∧ (1 : Int) ≤ 1) ∧
      (let floor : Nat := 2048; (0 : Int) < 2047 + 1 ∧ floor ≤ (2047 : Int) + 1 ∧ (2047 : Int) + 0 < floor) ∧
      ((-16 : Int) ≤ -16 ∧ (-16 : Int) ≤ 16 ∧ ((0 : Int) + 0 = 0)) := by decide +kernel

theorem hyp_GainRequestsFade :
    let m := room2 fun rm => { rm with gain := { rm.gain with mute := true, g := 0 } }
    up.admits (msg 2 2) 2 ∧ (clampStep 101).val = min 100 (101 : Payload).toNat ∧ (up.room 2).gain.mute = false ∧
      (100 : Payload).toNat ≠ 0 ∧ m.admits (msg 2 2) 2 ∧ (m.room 2).gain.mute = true := by decide +kernel

theorem hyp_PartTablesWritten :
    let body : List Payload := [37, 64] ++ List.replicate 64 200000#28
    let s := (inState .listen .settling).modRoom 2 fun rm => { rm with formats := rm.formats.set 0 ⟨.mx4, 1, FormatEntry.reset.map⟩ }
    up.admitsTable (msg 1 15) ∧ 2 ≤ body.length ∧ body.length = 2 + arg body 1 ∧ arg body 0 ≤ 100 ∧ arg body 1 ≤ 64 ∧
      arg body 0 + arg body 1 ≤ 101 ∧ up.profileInService 0 = false ∧ (List.replicate 66 (0 : Payload)).length = 66 ∧
      Row.ofCode 3 = some .s ∧ s.admitsTable (msg 1 15) ∧ (s.room 2).formats[(0 : Fin 4)].mode = .mx4 ∧
      (s.room 2).formats[(0 : Fin 4)].profile = 1 ∧ (s.room 2).path.state ≠ .off ∧ (s.room 2).activeFormat = 0 := by
  decide +kernel

theorem hyp_SelectionsInLive :
    let d (st : DipStage) : State := onAir.modRoom 2 fun rm => { rm with dip := { rm.dip with stage := st } }
    let x := onAir.modRoom 2 fun rm => { rm with formats := rm.formats.set 1 ⟨.mx4, 1, FormatEntry.reset.map⟩ }
    onAir.admits (msg 2 2) 2 ∧ (onAir.room 2).path.state = .live ∧ (onAir.room 2).dip.stage = .idle ∧
      Source.ofCode 1 = some .spare ∧ BankName.ofCode 1 = some .b ∧ (x.room 2).formats[(1 : Fin 4)].mode = .mx4 ∧
      x.profiles[(1 : Fin 4)].loaded ≠ 15#4 ∧ x.admits (msg 2 2) 2 ∧ (onAir.room 2).formats[(3 : Fin 4)].mode = .discrete ∧
      ((d .descent).room 2).dip.stage = .descent ∧ ((d .ascent).room 2).dip.stage = .ascent := by decide +kernel

theorem hyp_SelectionsApplied :
    let s := onAir.modRoom 2 fun rm => { rm with dip := ⟨.descent, 240, 0, some 1, none, some .b, false⟩ }
    up.periodOpen = true ∧ (up.room 2).path.state ≠ .live ∧ (up.room 2).activeSource ≠ .spare ∧ (up.room 2).activeFormat ≠ 1 ∧
      (up.room 2).bankInService ≠ .b ∧ (up.room 2).isActive (.format 0) = true ∧ (s.room 2).dip.stage = .descent ∧
      240 ≤ (s.room 2).dip.step ∧ (s.room 2).dip.bankSlot ≠ none ∧ (s.room 2).dip.srcSlot = none := by decide +kernel

theorem hyp_FormatEntryWritten :
    up.admits (msg 2 2) 2 ∧ mx4Body.length = 19 ∧ arg mx4Body 0 = (3 : Fin 4).val ∧
      Mode.ofCode (arg mx4Body 1) = some mx4Entry.mode ∧ arg mx4Body 2 = mx4Entry.profile.val ∧
      (∀ k : Chan, OutSrc.ofCode (arg mx4Body (3 + k.val)) = some mx4Entry.map[k]) ∧
      ¬((up.room 2).activeFormat = 3 ∧ (up.room 2).path.state ≠ .off) ∧ (up.room 2).dip.fmtSlot ≠ some 3 ∧
      1280 < ({ up with committedTotal := 1260 } : State).committedTotal + 40 ∧
      (∃ i : Fin 4, ((up.room 2).formats.set 3 mx4Entry)[i].mode = .mx4) ∧ (∀ i : Fin 4, (up.room 2).formats[i].mode = .discrete) ∧
      (let s := onAir.modRoom 2 fun rm => { rm with activeFormat := 3 }
       s.admits (msg 1 2) 2 ∧ (s.room 2).activeFormat = 3 ∧ (s.room 2).path.state ≠ .off) ∧
      ((onAir.modRoom 2 fun rm => { rm with dip := { rm.dip with fmtSlot := some 3 } }).room 2).dip.fmtSlot = some 3 := by
  decide +kernel

theorem up_budgetOk : up.budgetOk := by
  unfold State.budgetOk Bank.ok
  decide +kernel

theorem hyp_BankLoadsJudged :
    let s := onAir.modRoom 2 fun rm => { rm with dip := { rm.dip with stage := .descent, bankSlot := some .b } }
    (up.admits (msg 2 2) 2 ∧ BankName.ofCode 1 = some .b ∧ (up.room 2).bankInService ≠ .b ∧
      (up.room 2).dip.bankSlot ≠ some .b ∧ (List.replicate 16 (0 : Payload)).length = 16) ∧
      (up.room 2).bankInService = .a ∧ s.admits (msg 2 2) 2 ∧ (s.room 2).bankInService ≠ .b ∧
      (s.room 2).dip.bankSlot = some .b ∧ (15 : Payload).toNat ≤ 15 ∧ (1 : Payload).toNat + (8 : Payload).toNat ≤ 9 ∧
      (List.replicate 40 (0 : Payload)).length = 5 * (8 : Payload).toNat := by decide +kernel

theorem hyp_SectionsLoaded :
    let body : List Payload := [1, 15, 1, 8] ++ List.replicate 40 0#28
    up.admits (msg 2 2) 2 ∧ 4 ≤ body.length ∧ body.length = 4 + 5 * arg body 3 ∧ BankName.ofCode (arg body 0) = some .b ∧
      arg body 1 = (15 : Chan).val ∧ 1 ≤ arg body 2 ∧ 1 ≤ arg body 3 ∧ arg body 2 + arg body 3 ≤ 9 ∧
      (up.room 2).bankInService ≠ .b ∧ (up.room 2).dip.bankSlot ≠ some .b := by decide +kernel

/-- A load of eight ACTIVE slots into a part whose committed total stands at 1,273 is above the budget. -/
theorem hyp_SectionsLoaded_overBudget :
    let body : List Payload := [1, 15, 1, 8] ++ List.replicate 40 0#28
    let s : State := { up with committedTotal := 1273 }
    let new := (s.room 2).setBank .b (((s.room 2).bank .b).load 15 body 1 8)
    s.admits (msg 2 2) 2 ∧ 1280 < s.committedTotal + new.charge - (s.room 2).commitment ∧
      s.committedTotal < s.committedTotal + new.charge - (s.room 2).commitment ∧
      (reply (after (.loadSections (msg 2 2) body) s)).map (·.1) = some .overBudget := by decide +kernel

theorem hyp_TagByTests :
    let c : Coefs := ⟨0, 0, 0, 4194303, 0⟩
    let e : Coefs := ⟨0, 0, 0, 4194304, 0⟩
    (c ≠ ⟨4194304, 0, 0, 0, 0⟩ ∧ |c.a2| < 4194304 ∧ |c.a1| < 4194304 + c.a2) ∧ 4194304 + e.a2 ≤ |e.a1| := by decide +kernel

theorem hyp_DemandWithinBudget : up.budgetOk := up_budgetOk

theorem hyp_BlockEndTaken :
    let s : State := { onAir with blockPos := 480, blockEndDue := true }
    s.blockEndDue = true ∧ ((s.room 2).path.state = .live ∧ (s.room 2).path.enteredInBlock = false) ∧
      (s.room 1).path.state = .off := by decide +kernel

/-- The premises of the block end that comes early. -/
theorem hyp_BlockEndTaken_early :
    let s : State := after (.samplePeriod 0 (chains [2])) { onAir with blockPos := 479 }
    s.periodOpen = true ∧ s.blockPos = 479 ∧ s.blockEndDue = false ∧
      ∀ q : Room, (s.room q).path.state = .live ∨ (s.room q).path.state = .parked →
        (s.room q).ahead ≠ none ∧ ((s.room q).dip.fmtSlot = none ∨
          (((s.room q).dip.stage ≠ .descent ∨ (s.room q).dip.step < 240) ∧
            ((s.room q).path.phase = .rampingIn ∨ ∀ x, (s.room q).path.ramp = some x → x.n < x.len))) := by
  refine ⟨by decide +kernel, by decide +kernel, by decide +kernel, fun q h => ⟨?_, .inl ?_⟩⟩ <;> revert q <;> decide +kernel

theorem hyp_AlarmConditionsJudged :
    let s (ph : CondPhase) (run : Nat) : State := room2 fun rm => { rm with rackCond := ⟨ph, run, false⟩ }
    let new : AlarmEntry := ⟨5, .rack, true, 7, 7, 1, 0⟩
    ((s .quiet 0).room 2).cond .rack = ⟨.quiet, 0, false⟩ ∧ ((s .pending 199).room 2).cond .rack = ⟨.pending, 199, false⟩ ∧
      ((s .raised 0).room 2).cond .rack = ⟨.raised, 0, false⟩ ∧ ((s .heldAck 0).room 2).cond .rack = ⟨.heldAck, 0, false⟩ ∧
      (∀ d ∈ fullList, ¬(d.room = 5 ∧ d.cond = .rack)) ∧ new.room = 5 ∧ new.cond = .rack ∧
      (fullList.drop 1).length < 48 ∧ 48 ≤ fullList.length ∧ (∀ d ∈ fullList.drop 1 ++ [new], d.active = true) ∧
      48 ≤ (fullList.drop 1 ++ [new]).length ∧ (raiseList (fullList.drop 1 ++ [new]) 6 .rack 7 0).2 = none ∧
      (raiseList [] 6 .rack 7 0).2 = some 1 ∧ up.mgmt.notices.length ≤ 30 ∧ fullList = [] ++ ⟨0, .level 7 .over, false, 5, 5, 1, 8300000⟩ :: fullList.drop 1 := by
  decide +kernel

theorem hyp_AlarmTablesWritten :
    up.admits (msg 2 2) 2 ∧ (32768 : Payload).toNat % 65536 ≠ 0 ∧ BitVec.ofNat 4 (16 : Payload).toNat = 0 ∧
      BitVec.ofNat 4 (8 : Payload).toNat ≠ 0 := by decide +kernel

theorem hyp_AlarmsAcknowledged :
    let s : State := { up with supply := true }
    s.listening ∧ s.readable ∧ namesRoom (msg 2 2) 2 ∧ (msg 2 2).level.toNat ≤ 2 ∧
      (268435455 : Payload).toNat = 268435455 ∧ CondId.ofCodes (16 : Payload).toNat (4 : Payload).toNat = some .rack ∧
      CondId.ofCodes (15 : Payload).toNat (3 : Payload).toNat = some (.level 15 .loss) := by decide +kernel

theorem hyp_CuesFire :
    let h : Handover := ⟨2, [.level 1 .silence]⟩
    let s : State := { guarded with handovers := [⟨1, []⟩, h] }
    (guarded.listening ∧ guarded.operational ∧ namesRoom (msg 2 2) 2 ∧ findCue (guarded.room 2).list 700 = some failover ∧
      (msg 2 2).level.toNat ≤ failover.gate.val ∧ findCue (guarded.room 2).list 9999 = none) ∧
      s.periodOpen = true ∧ s.handovers = [⟨1, []⟩] ++ h :: [] ∧
      h.room = 2 ∧ (∀ x ∈ [(⟨1, []⟩ : Handover)], x.room ≠ 2) ∧ s.supply = false ∧ s.store = .ready ∧ s.restart = none ∧
      State.reset.store ≠ .ready ∧ (guarded.perform 2 700 (.contact 9 true)).2 ≠ .ok ∧
      (let m := room2 fun rm => { rm with formats := rm.formats.set 3 mx4Entry, gain := { rm.gain with mute := true } }
       (m.room 2).formats[(3 : Fin 4)].mode = .mx4 ∧ m.profiles[(m.room 2).formats[(3 : Fin 4)].profile].loaded ≠ 15#4 ∧
        (m.room 2).gain.mute = true) ∧
      (guarded.room 2).formats[(0 : Fin 4)].mode = .discrete ∧ (guarded.room 2).gain.mute = false ∧
      (100 : Fin 101).val = min 100 (127 : BitVec 7).toNat ∧ (0 : BitVec 16).toNat = 0 ∧ (1 : BitVec 16).toNat ≠ 0 ∧
      3 < (4 : BitVec 3).toNat ∧ (3 : BitVec 3).toNat = (3 : Fin 4).val := by decide +kernel

theorem hyp_CueSequencesJudged :
    let one : List Payload := 1 :: failoverWords
    let bad : List Payload := [1, 700, 3 * 67108864]
    let s := room2 fun rm => { rm with draft := [bare 1 .manual, bare 2 (.at 5000), bare 3 (.at 4000)] }
    let big := room2 fun rm => { rm with draft := (List.range 128).map fun n => bare (n + 1) .manual }
    let low := room2 fun rm => { rm with draft := [bare 700 .manual] }
    (∀ x ∈ [up, big, s, low], x.admits (msg 2 2) 2) ∧ one.length ≤ 72 ∧ entriesOf one = some [failoverWords] ∧
      [failoverWords].map Cue.ofWords = [failover].map some ∧ (up.room 2).draft = [] ∧ up.cueUsed + 1 ≤ 512 ∧
      (rehearsal.filterMap Cue.frame?).Pairwise (· ≤ ·) ∧ entriesOf bad = some ([] ++ [700, 3 * 67108864] :: []) ∧
      Cue.ofWords [700, 3 * 67108864] = none ∧ 128 < (big.room 2).draft.length + 1 ∧
      (((big.room 2).draft.getLast?.map (·.number)).toList ++ [failover].map (·.number)).Pairwise (· < ·) ∧
      (s.room 2).draft = [bare 1 .manual, bare 2 (.at 5000)] ++ bare 3 (.at 4000) :: [] ∧
      5000 ∈ [bare 1 .manual, bare 2 (.at 5000)].filterMap Cue.frame? ∧
      ([failoverWords].map Cue.ofWords = ([] ++ failover :: []).map some ∧
        (((low.room 2).draft.getLast?.map (·.number)).toList ++ ([] : List Cue).map (·.number)).getLast? = some 700 ∧
        failover.number ≤ 700) := by decide +kernel

theorem hyp_CursorRuns :
    let s := (inState .ready .none).modRoom 2 fun rm => { rm with
      list := rehearsal, cursor := 4, tc := ⟨.running, some 2400, 0, 0, false⟩ }
    let off := s.modPath 2 fun p => { p with state := .off }
    (s.supply = false ∧ s.store = .ready ∧ s.restart = none ∧ (s.room 2).path.state ≠ .off ∧
      ((s.room 2).list.filterMap Cue.frame?).Pairwise (· ≤ ·) ∧ (s.room 2).cursor ≤ (s.room 2).list.length ∧
      ∀ i < 4, ∀ c ∈ (s.room 2).list[i]?, ∀ f ∈ c.frame?, f ≤ 2401) ∧ (off.room 2).path.state = .off ∧
      (((s.fire 2 ⟨1, .at 10, 2, [.go .goOff]⟩ (.timecode false 10)).st.room 2).path.state = .off ∧
        ((s.fire 2 (bare 1 .manual) (.timecode false 10)).st.room 2).path.state ≠ .off) ∧
      firstAt (fun _ => true) rehearsal < rehearsal.length ∧ (s.room 2).tc.state ≠ .absent ∧
      classify (s.room 2).tc.last 2403 = .advance 2403 ∧ classify (s.room 2).tc.last 2404 = .jump 2404 ∧
      classify (s.room 2).tc.last 2400 = .same := by decide +kernel

theorem hyp_TimersRun :
    let s (rep : Bool) (target : Nat) : State := guarded.modRoom 2 fun rm => { rm with
      timers := rm.timers.set 3 ⟨true, .second, 30, rep, some target, 1, true⟩ }
    guarded.admits (msg 2 2) 2 ∧ (s false 710).periodOpen = true ∧ (3 : Payload).toNat = (3 : Fin 4).val ∧ TimerUnit.ofCode 2 = some .second ∧
      boolOfCode 1 = some true ∧ (9999 : Payload).toNat ≤ 9999 ∧ (s false 710).supply = false ∧
      ((s true 710).room 2).timers[(3 : Fin 4)].rep = true ∧ ((s false 710).room 2).timers[(3 : Fin 4)].expiring = true ∧
      (s false 710).store = .ready ∧ (s false 710).restart = none ∧
      (findCue ((s false 710).room 2).list 710).isSome = true ∧ ((s true 9).room 2).timers[(3 : Fin 4)].target = some 9 ∧
      findCue ((s true 9).room 2).list 9 = none := by decide +kernel

theorem hyp_ContactsAct :
    let s : State := { guarded with
      periodOpen := true, inputsFresh := false, inputs := up.inputs.set 15 ⟨none, false, 959, 4, true, false⟩ }
    let owned : State := { s with inputs := s.inputs.set 15 ⟨some 2, false, 959, 4, true, false⟩ }
    s.listening ∧ s.operational ∧ namesNone (msg 2 15) ∧ (msg 1 15).level.toNat ≤ 1 ∧ belowOrNone 12 11 = some (some 11) ∧
      belowOrNone 12 268435455 = some none ∧ (15 : Payload).toNat = (15 : Fin 16).val ∧ (23 : Payload).toNat = (23 : Fin 24).val ∧
      boolOfCode 1 = some true ∧ (msg 2 15).level.toNat ≤ (s.room 2).guard.val ∧ s.inputs[(15 : Fin 16)].run = 959 ∧
      s.inputs[(15 : Fin 16)].sampled = false ∧ s.inputsFresh = false ∧ s.inputs[(15 : Fin 16)].owner = none ∧
      s.periodOpen = true ∧ close.closes = true ∧ owned.inputs[(15 : Fin 16)].owner = some 2 ∧ owned.supply = false ∧ owned.store = .ready ∧
      owned.restart = none ∧ ({ owned with supply := true } : State).supply = true ∧
      ({ owned with periodOpen := false } : State).openPeriod.edgeDue 15 = true ∧
      s.outputs[(2 : Fin 24)].owner = some 2 ∧ s.outputs[(9 : Fin 24)].owner ≠ some 2 := by decide +kernel

theorem hyp_SamplePeriodAndLanes :
    let t := after (.samplePeriod 0 close) up
    let last : State := { shut onAir with blockPos := 479 }
    (chains [2]).closes = false ∧ close.closes = true ∧ closeFirst.closes = true ∧ closeFirst.blockFirst = true ∧
      last.openPeriod.blockPos = 479 ∧ last.openPeriod.waiting = [] ∧ ((last.openPeriod.putAhead [2]).room 2).ahead ≠ none ∧
      ((-8388608 : Int) ≤ -8388608 ∧ (8388607 : Int) ≤ 8388607) ∧
      ((inState .parked .none).room 2).path.p = 0 ∧ ((inState .halted .none).room 2).path.state = .halted ∧
      (last.openPeriod.after (last.openPeriod.handovers.map fun x => .alarmHandover x.room)).blockPos = 479 ∧ (t.room 11).path.state ∈ [RoomState.off, .listen, .ready] ∧
      (t.room 11).path.pilotSent = none ∧ ((proof 1).room 2).path.pilotSent = none ∧
      (let e := inState .ready .none fun p => { p with pilotSent := some (5, 1920) }
       (e.room 2).path.state ∈ [RoomState.off, .listen, .ready, .prove] ∧ (e.room 2).path.pilotSent = some (5, 1919 + 1)) ∧ 16 * (11 : Room).val + (15 : Chan).val < 192 ∧
      (onAir.room 2).path.state = .live ∧ ((proof 1).room 2).path.state = .prove ∧
      ((proof 1).room 2).path.proofPos = some ⟨5, 1⟩ ∧ ((proof 1).room 2).path.seqCount = 1919 + 1 := by decide +kernel

theorem hyp_EngineRestartBegins :
    up.listening ∧ up.operational ∧ namesNone (msg 0 15) ∧ (msg 0 15).level.toNat = 0 := by decide +kernel

/-! The invariants hold of a room on the air with a command in front, and its step answers a next state. -/

/-- A room on the air, and a frame to be sent. -/
def running : State := { onAir with pending := [.outboundFeedFrame] }

theorem running_steps : ∃ t, step running = .next t := ⟨_, rfl⟩

theorem hyp_PathsKept : running.pathsOk := by
  have h : ∀ r : Room, (running.room r).path.ramp = none ∧ (running.room r).path.phase.ramp? = none := by decide +kernel
  intro r
  have h2 : (running.room r).path.rampOk := by simp [Path.rampOk, h r]
  refine ⟨?_, ?_, ?_, ?_, ?_, ?_, ?_, h2, ?_⟩ <;> clear h2 <;> revert r <;> decide +kernel

theorem hyp_ManagementKept : running.mgmt.ok := by
  refine ⟨?_, ?_, ?_, ?_, ?_, ?_, ?_, ?_, ?_⟩ <;> decide +kernel

theorem hyp_BudgetKept : running.budgetOk := by
  unfold State.budgetOk Bank.ok
  decide +kernel

theorem hyp_BudgetKept_tags : running.tagsOk := by
  have h : ∀ (r : Room) (n : BankName), (running.room r).bank n = .cleared := by
    intro r n
    cases n <;> revert r <;> decide +kernel
  intro r n k i
  rw [h r n]
  exact ⟨.inl (by revert k i; decide +kernel), fun e => absurd e (by revert k i; decide +kernel)⟩

theorem hyp_AlarmsKept : running.alarmsOk := by
  have q : ∀ (r : Room) (x : CondId), (running.room r).cond x = .quiet := by
    intro r x
    cases x with
    | rack => (revert r; decide +kernel)
    | level k c => (cases c <;> revert r k <;> decide +kernel)
  have none_listed : running.alarms = [] := rfl
  refine ⟨by decide +kernel, by decide +kernel, by simp [none_listed], fun r x => ?_⟩
  rw [q r x]
  simp [Cond.quiet]

theorem hyp_AlarmsKept_off : ({ running with alarms := [⟨2, .level 0 .loss, true, 6, 6, 1, 0⟩] } : State).offUnlisted := by
  unfold State.offUnlisted
  decide +kernel

theorem hyp_FactorsKept : running.factorsOk := by
  have n : ∀ r : Room, (running.room r).gain.fade = none ∧ (running.room r).dip = .reset := by decide +kernel
  refine ⟨by decide +kernel, fun r => ⟨⟨?_, ?_⟩, ?_, ?_⟩⟩
  · revert r; decide +kernel
  · intro f hf; rw [(n r).1] at hf; cases hf
  · rw [(n r).2]; simp [Dip.ok, Dip.reset, Dip.filled, Config.unity]
  · intro _; rw [(n r).2]; rfl

theorem hyp_FactorsKept_signals : running.signalsOk := by
  unfold State.signalsOk isSample DecodeState.ok
  decide +kernel

theorem hyp_CuesKept : running.cuesOk := by
  have n : ∀ r : Room, (running.room r).list = [] ∧ (running.room r).draft = [] ∧ (running.room r).cursor = 0 := by
    decide +kernel
  refine ⟨by decide +kernel, fun r => ?_⟩
  obtain ⟨a, b, c⟩ := n r
  simp [a, b, c, cuesOrdered, cursorAt]

/-- Room 2 on the air with its cursor past the cues of frames 0 and 2,400. -/
theorem hyp_CuesKept_cursors : (running.modRoom 2 fun rm => { rm with
    list := rehearsal, cursor := 4, tc := ⟨.running, some 2400, 0, 0, false⟩ }).cursorsOk := by
  intro r
  by_cases e : r = 2
  · subst e
    refine ⟨?_, by decide +kernel, by decide +kernel⟩
    intro i hi c f hc hf
    have hb : ∀ i < 4, ∀ c ∈ rehearsal[i]?, ∀ f ∈ c.frame?, f ≤ 2400 := by decide +kernel
    exact ⟨2400, rfl, hb i hi c hc f hf⟩
  · rw [State.room_modRoom_ne _ _ e]
    have n : ∀ r : Room, (running.room r).list = [] ∧ (running.room r).cursor = 0 := by decide +kernel
    refine ⟨fun i hi => ?_, fun _ => ?_, by revert r; decide +kernel⟩
    · exact absurd ((n r).2 ▸ hi) (by omega)
    · rw [(n r).1, (n r).2]; rfl

theorem hyp_CountsKept : running.countsOk := by
  unfold State.countsOk
  decide +kernel

theorem hyp_CountsKept_timers : (running.modRoom 2 fun rm => { rm with
    timers := rm.timers.set 0 ⟨true, .second, 30, false, some 710, 9, false⟩ }).timersOk := by
  unfold State.timersOk Timer.ok
  decide +kernel

theorem hyp_GainDipAndPathInRange : running.pathsOk ∧ running.factorsOk := ⟨hyp_PathsKept, hyp_FactorsKept⟩

end Sys2Proof.Tests
end

section
/-! Signal arithmetic (03): scale-and-round on exact sums (R51). -/

namespace Sys2Proof.Machine

/-- A coefficient times a sample takes at most 46 bits of magnitude. -/
theorem abs_mul_le_of_abs_le {x y : Int} (hx : |x| ≤ 2 ^ 23) (hy : |y| ≤ 2 ^ 23) : |x * y| ≤ 2 ^ 46 :=
  calc |x * y| = |x| * |y| := abs_mul x y
    _ ≤ 2 ^ 23 * 2 ^ 23 := mul_le_mul hx hy (abs_nonneg y) (by norm_num)
    _ = 2 ^ 46 := by norm_num

/-- `scale` is the floor of the quotient: its product with 2^k does not exceed the sum with the half added (R51). -/
theorem scale_mul_le (a : Int) (k : Nat) : scale a k * 2 ^ k ≤ a + 2 ^ (k - 1) :=
  Int.ediv_mul_le _ (by positivity)

/-- No greater integer would do (R51). -/
theorem lt_scale_add_one_mul (a : Int) (k : Nat) : a + 2 ^ (k - 1) < (scale a k + 1) * 2 ^ k :=
  Int.lt_ediv_add_one_mul_self _ (by positivity)

/-- A section's sum is five products of at most 2^46 each (R51, R55). -/
theorem abs_sectionSum_lt {c : Coefs} {h : Hist} {x : Int}
    (hb : ∀ y ∈ [c.b0, c.b1, c.b2, c.a1, c.a2, x, h.x1, h.x2, h.y1, h.y2], |y| ≤ 2 ^ 23) :
    |sectionSum c h x| < 2 ^ 49 := by
  simp only [List.forall_mem_cons] at hb
  obtain ⟨b0, b1, b2, a1, a2, hx, x1, x2, y1, y2, -⟩ := hb
  have p0 := abs_le.mp (abs_mul_le_of_abs_le b0 hx)
  have p1 := abs_le.mp (abs_mul_le_of_abs_le b1 x1)
  have p2 := abs_le.mp (abs_mul_le_of_abs_le b2 x2)
  have q1 := abs_le.mp (abs_mul_le_of_abs_le a1 y1)
  have q2 := abs_le.mp (abs_mul_le_of_abs_le a2 y2)
  rw [sectionSum, abs_lt]
  omega

/-- Settles O28: the two inequalities of the floor, the rule's examples, and the bound of five products. -/
theorem scaleRounds : Obligations.ScaleRounds :=
  ⟨fun a k => ⟨scale_mul_le a k, lt_scale_add_one_mul a k⟩, by decide, by decide,
    fun _ _ _ hb => ⟨rfl, abs_sectionSum_lt hb⟩⟩

end Sys2Proof.Machine
end

section
/-! Signal arithmetic (03): a room's gain, dip factor and path factor stay in range at every step (R64). The invariant
carried along the turns of a command is that of the gains (`Gain.ok`), the bound of d, and what `Path.ok` says of p and of a ramp
in flight. -/

namespace Sys2Proof.Machine

/-! ### Between two values (R25, R61) -/

theorem interp_zero (a b len : Nat) : interp a b len 0 = a := by simp [interp]

theorem interp_of_le {a b : Nat} (h : a ≤ b) (len n : Nat) : interp a b len n = a + (b - a) * n / len := by
  have hq : Int.tdiv (((b : Int) - a) * n) len = ((b - a) * n / len : Nat) := by
    rw [Int.ofNat_tdiv]; push_cast [h]; rfl
  rw [interp, hq]
  generalize (b - a) * n / len = k
  omega

theorem interp_of_ge {a b : Nat} (h : b ≤ a) (len n : Nat) : interp a b len n = a - (a - b) * n / len := by
  have hq : Int.tdiv (((b : Int) - a) * n) len = -((a - b) * n / len : Nat) := by
    rw [Int.ofNat_tdiv, ← Int.neg_tdiv]; push_cast [h]; congr 1; ring
  rw [interp, hq]
  generalize (a - b) * n / len = k
  omega

/-- Up to its last step a fade or ramp stands between its two ends. -/
theorem interp_between {len n : Nat} (h : n ≤ len) (a b : Nat) :
    min a b ≤ interp a b len n ∧ interp a b len n ≤ max a b := by
  have part (d : Nat) : d * n / len ≤ d :=
    Nat.div_le_of_le_mul (by rw [Nat.mul_comm len]; exact Nat.mul_le_mul_left d h)
  rcases Nat.le_total a b with hab | hab
  · have := part (b - a)
    rw [interp_of_le hab]
    generalize (b - a) * n / len = k at this ⊢
    omega
  · have := part (a - b)
    rw [interp_of_ge hab]
    generalize (a - b) * n / len = k at this ⊢
    omega

/-! ### Room gain (R59 to R63) -/

theorem Fade.value_between {f : Fade} (h : f.n ≤ f.len) : min f.g0 f.g1 ≤ f.value ∧ f.value ≤ max f.g0 f.g1 :=
  interp_between h f.g0 f.g1

/-- A gain with no fade in flight is in order when g is in its range. -/
theorem Gain.ok_of_still {gn : Gain} (hg : gn.g ≤ 131071) (hf : gn.fade = none) : gn.ok :=
  ⟨hg, fun f h => by rw [hf] at h; cases h⟩

theorem Gain.ok_begin {gn : Gain} (h : gn.ok) {g1 len : Nat} (h1 : g1 ≤ 131071) (hl : len ≤ 2880000) : (gn.begin g1 len).ok := by
  unfold Gain.begin
  split
  · exact Gain.ok_of_still h1 rfl
  · refine ⟨h.1, fun f hf => ?_⟩
    cases hf
    exact ⟨h.1, h1, Nat.pos_of_ne_zero ‹_›, hl, Nat.zero_le _, (interp_zero _ _ _).symm⟩

theorem Gain.ok_advance {gn : Gain} (h : gn.ok) : gn.advance.ok := by
  unfold Gain.advance
  split
  · rename_i f hf
    obtain ⟨h0, h1, hpos, hlen, -, -⟩ := h.2 f hf
    have hn : f.advance.n ≤ f.advance.len := Nat.min_le_left _ _
    refine ⟨?_, fun f' hf' => ?_⟩
    · exact (Fade.value_between hn).2.trans (max_le h0 h1)
    · cases hf'
      exact ⟨h0, h1, hpos, hlen, hn, rfl⟩
  · exact h

theorem Gain.ok_endFade {gn : Gain} (h : gn.ok) : gn.endFade.ok := Gain.ok_of_still h.1 rfl

theorem fadeLength_le (ms : Nat) : fadeLength ms ≤ 2880000 := by
  unfold fadeLength
  omega

theorem Gain.ok_set {gn : Gain} (h : gn.ok) {law : Vector Nat 101} (hlaw : ∀ f : Fin 101, law[f] ≤ 131071) (step ms : Nat) :
    (gn.set law step ms).ok := by
  unfold Gain.set
  dsimp only
  split
  · exact h
  · exact Gain.ok_begin (gn := { gn with step := clampStep step }) h (hlaw _) (fadeLength_le ms)

theorem Gain.ok_setMute {gn : Gain} (h : gn.ok) {law : Vector Nat 101} (hlaw : ∀ f : Fin 101, law[f] ≤ 131071) (yes : Bool) :
    (gn.setMute law yes).ok := by
  unfold Gain.setMute
  split
  · exact h
  · refine Gain.ok_begin (gn := { gn with mute := yes }) h ?_ (by decide)
    split
    · exact Nat.zero_le _
    · exact hlaw _

/-! ### The dip factor (R65 to R67) -/

theorem dipFactor_le (stage : DipStage) {step : Nat} (h : step ≤ 240) : dipFactor stage step ≤ 65536 := by
  cases stage
  · exact Nat.le_refl _
  all_goals
    simp only [dipFactor, Config.unity, Config.dipSteps]
    omega

theorem Dip.advance_d_le {dp : Dip} (h : dp.d ≤ 65536) : dp.advance.d ≤ 65536 := by
  unfold Dip.advance
  split
  · exact h
  · exact dipFactor_le _ (Nat.min_le_left _ _)

/-- A change handed to the dip machine moves no factor at once (R66). -/
theorem Dip.hand_d (dp : Dip) (active : Bool) (c : DipChange) : (dp.hand active c).d = dp.d := by
  unfold Dip.hand
  split <;> cases c <;> rfl

/-! ### The path factor (R25) -/

/-- The path factor lies in its range, and where a ramp is in flight it stands at the ramp's value, short of or at its last
step, between two ends in range (R25, R64). -/
def Path.factorInRange (p : Path) : Prop :=
  p.p ≤ 65536 ∧ ∀ q, p.ramp = some q → q.p0 ≤ 65536 ∧ q.p1 ≤ 65536 ∧ q.n ≤ q.len ∧ p.p = q.value

theorem Ramp.value_between {q : Ramp} (h : q.n ≤ q.len) : min q.p0 q.p1 ≤ q.value ∧ q.value ≤ max q.p0 q.p1 :=
  interp_between h q.p0 q.p1

theorem Phase.ramp_end_le {ph : Phase} {e : Nat × Nat} (h : ph.ramp? = some e) : e.1 ≤ 65536 := by
  cases ph <;> cases h <;> decide

/-- The invariant of the paths says it of every path. -/
theorem Path.factorInRange_of_ok {p : Path} (h : p.ok) : p.factorInRange := by
  obtain ⟨-, -, -, -, hp, -, -, hramp, -⟩ := h
  refine ⟨hp, fun q hq => ?_⟩
  unfold Path.rampOk at hramp
  rw [hq] at hramp
  cases he : p.phase.ramp? with
  | none => rw [he] at hramp; exact hramp.elim
  | some e =>
    rw [he] at hramp
    obtain ⟨h1, -, hn, h0, hv⟩ := hramp
    exact ⟨h0, h1 ▸ Phase.ramp_end_le he, hn, hv⟩

theorem Path.factorInRange_of_still {p : Path} (hp : p.p ≤ 65536) (hr : p.ramp = none) : p.factorInRange :=
  ⟨hp, fun q h => by rw [hr] at h; cases h⟩

/-- It looks at p and the ramp alone. -/
theorem Path.factorInRange_congr {a b : Path} (h : a.factorInRange) (hp : b.p = a.p) (hr : b.ramp = a.ramp) : b.factorInRange := by
  unfold Path.factorInRange
  rw [hp, hr]
  exact h

theorem Path.factorInRange_beginRamp {p : Path} (h : p.factorInRange) (ph : Phase) {p1 : Nat} (h1 : p1 ≤ 65536) (len : Nat) :
    (p.beginRamp ph p1 len).factorInRange := by
  refine ⟨h.1, fun q hq => ?_⟩
  cases hq
  exact ⟨h.1, h1, Nat.zero_le _, (interp_zero _ _ _).symm⟩

/-- As a period opens a ramp in flight takes a step, and p its value; nothing else moves p (R25). -/
theorem Path.tick_p_ramp (p : Path) :
    p.tick.p = p.ramp.elim p.p (fun q => q.advance.value) ∧ p.tick.ramp = p.ramp.map Ramp.advance := by
  obtain ⟨_, phase, _, _, _, _, _, _, _, _, _, _, _, ramp, _, next, _, _, _, _⟩ := p
  cases next <;> cases phase <;> cases ramp <;> exact ⟨rfl, rfl⟩

theorem Path.factorInRange_tick {p : Path} (h : p.factorInRange) : p.tick.factorInRange := by
  obtain ⟨hp, hr⟩ := p.tick_p_ramp
  cases e : p.ramp with
  | none =>
    rw [e] at hp hr
    exact Path.factorInRange_congr h hp (hr.trans e.symm)
  | some q =>
    rw [e] at hp hr
    obtain ⟨h0, h1, -, -⟩ := h.2 q e
    have hn : q.advance.n ≤ q.advance.len := Nat.min_le_left _ _
    refine ⟨hp ▸ (Ramp.value_between hn).2.trans (max_le h0 h1), fun q' hq' => ?_⟩
    cases hr.symm.trans hq'
    exact ⟨h0, h1, hn, hp⟩

/-! ### The factors of a room -/

/-- The three factors of a room lie in their ranges, with a fade and a ramp in flight at their values (R64). -/
def RoomRec.factorsInRange (rm : RoomRec) : Prop := rm.gain.ok ∧ rm.dip.d ≤ 65536 ∧ rm.path.factorInRange

/-- It looks at the gain, at d, at p and at the ramp alone. -/
theorem RoomRec.factorsInRange_congr {a b : RoomRec} (h : a.factorsInRange) (hg : b.gain = a.gain) (hd : b.dip.d = a.dip.d)
    (hp : b.path.p = a.path.p) (hr : b.path.ramp = a.path.ramp) : b.factorsInRange := by
  obtain ⟨hgain, hdip, hpath⟩ := h
  exact ⟨hg ▸ hgain, hd ▸ hdip, Path.factorInRange_congr hpath hp hr⟩

theorem RoomRec.factorsInRange_tick {rm : RoomRec} (supply : Bool) (h : rm.factorsInRange) : (rm.tick supply).factorsInRange := by
  obtain ⟨hgain, hdip, hpath⟩ := h
  exact ⟨Gain.ok_advance hgain, Dip.advance_d_le hdip, Path.factorInRange_tick hpath⟩

theorem RoomRec.factorsInRange_restart {rm : RoomRec} {law : Vector Nat 101} (hlaw : ∀ f : Fin 101, law[f] ≤ 131071) :
    (rm.restart law).factorsInRange :=
  ⟨Gain.ok_of_still (hlaw _) rfl, Nat.le_refl _, Path.factorInRange_of_still (Nat.zero_le _) rfl⟩

theorem RoomRec.factorsInRange.p_le {rm : RoomRec} (h : rm.factorsInRange) : rm.path.p ≤ 65536 := by
  obtain ⟨-, -, hp, -⟩ := h
  exact hp

/-- A room whose path ramp is over, with p still and in range, and whose gain and dip factor are as they were. -/
theorem RoomRec.factorsInRange_of_still {a b : RoomRec} (h : a.factorsInRange) (hg : b.gain = a.gain) (hd : b.dip.d = a.dip.d)
    (hp : b.path.p ≤ 65536) (hr : b.path.ramp = none) : b.factorsInRange := by
  obtain ⟨hgain, hdip, -⟩ := h
  exact ⟨hg ▸ hgain, hd ▸ hdip, Path.factorInRange_of_still hp hr⟩

/-! ### Changes of a room's state (R7 to R25) -/

theorem RoomRec.factorsInRange_toOff {rm : RoomRec} (h : rm.factorsInRange) : rm.toOff.factorsInRange :=
  RoomRec.factorsInRange_of_still h rfl rfl (Nat.zero_le _) rfl

theorem RoomRec.factorsInRange_toHalted {rm : RoomRec} (h : rm.factorsInRange) : rm.toHalted.factorsInRange :=
  RoomRec.factorsInRange_of_still h rfl rfl (Nat.zero_le _) rfl

theorem RoomRec.factorsInRange_toParked {rm : RoomRec} (h : rm.factorsInRange) : rm.toParked.factorsInRange :=
  RoomRec.factorsInRange_of_still h rfl rfl (Nat.zero_le _) rfl

theorem RoomRec.factorsInRange_toPlain {rm : RoomRec} (st : RoomState) (h : rm.factorsInRange) :
    (RoomRec.toPlain st rm).factorsInRange :=
  RoomRec.factorsInRange_of_still h rfl rfl h.p_le rfl

theorem RoomRec.factorsInRange_toDebouncing {rm : RoomRec} (h : rm.factorsInRange) : rm.toDebouncing.factorsInRange :=
  RoomRec.factorsInRange_of_still h rfl rfl h.p_le rfl

theorem RoomRec.factorsInRange_toSettling {rm : RoomRec} (h : rm.factorsInRange) : rm.toSettling.factorsInRange := by
  unfold RoomRec.toSettling
  dsimp only
  split <;> exact RoomRec.factorsInRange_of_still h rfl rfl h.p_le rfl

/-- A proof begins without a touch of p or of the ramp (R17). -/
theorem RoomRec.factorsInRange_toProve {rm : RoomRec} (h : rm.factorsInRange) : rm.toProve.factorsInRange := by
  unfold RoomRec.toProve
  dsimp only
  split <;> exact h

theorem RoomRec.factorsInRange_toLive {rm : RoomRec} (h : rm.factorsInRange) : rm.toLive.factorsInRange := by
  obtain ⟨hgain, hdip, hpath⟩ := h
  exact ⟨hgain, hdip, Path.factorInRange_beginRamp (p := { rm.path with state := .live }) hpath _ (by decide) _⟩

/-- The filled slots are applied without a touch of the gain, of d or of the path (R67). -/
theorem RoomRec.applySlots_frame (rm : RoomRec) :
    rm.applySlots.gain = rm.gain ∧ rm.applySlots.dip.d = rm.dip.d ∧ rm.applySlots.path = rm.path := by
  unfold RoomRec.applySlots
  rw [RoomRec.applyFormat_slot]
  cases rm.dip.srcSlot <;> cases rm.dip.bankSlot <;> exact ⟨rfl, rfl, rfl⟩

theorem RoomRec.factorsInRange_applyChange {rm : RoomRec} (c : DipChange) (h : rm.factorsInRange) :
    (rm.applyChange c).factorsInRange := by
  cases c with
  | format i =>
    rw [RoomRec.applyChange, RoomRec.applyFormat_eq]
    exact h
  | source m => exact h
  | bank n => exact h

theorem RoomRec.factorsInRange_bottom {rm : RoomRec} (h : rm.factorsInRange) : rm.bottom.factorsInRange := by
  obtain ⟨hg, hd, hp⟩ := rm.applySlots_frame
  exact RoomRec.factorsInRange_congr h hg hd (congrArg Path.p hp) (congrArg Path.ramp hp)

/-- A room that leaves LIVE has d at unity, or had no dip (R68). -/
theorem RoomRec.factorsInRange_endDip {rm : RoomRec} (h : rm.factorsInRange) : rm.endDip.factorsInRange := by
  unfold RoomRec.endDip
  split
  · exact h
  · obtain ⟨hg, -, hp⟩ := rm.applySlots_frame
    obtain ⟨hgain, -, hpath⟩ := h
    exact ⟨hg ▸ hgain, Nat.le_refl _, hp ▸ hpath⟩

theorem RoomRec.factorsInRange_markEntry {rm : RoomRec} (left : RoomState) (h : rm.factorsInRange) :
    (rm.markEntry left).factorsInRange := by
  unfold RoomRec.markEntry
  split <;> exact h

/-- A change of a room's state keeps the factors in range where what it does to the record itself does (R7, R68). -/
theorem RoomRec.factorsInRange_afterTransit {rm : RoomRec} {f : RoomRec → RoomRec}
    (hf : ∀ x : RoomRec, x.factorsInRange → (f x).factorsInRange) (h : rm.factorsInRange) : (rm.afterTransit f).factorsInRange := by
  unfold RoomRec.afterTransit
  refine RoomRec.factorsInRange_markEntry _ (hf _ ?_)
  split
  · exact RoomRec.factorsInRange_endDip h
  · exact h

/-- A load writes formats or banks, and no factor. -/
theorem RoomRec.factorsInRange_setBank {rm : RoomRec} (n : BankName) (b : Bank) (h : rm.factorsInRange) :
    (rm.setBank n b).factorsInRange := by
  cases n <;> exact h

theorem RoomRec.factorsInRange_putCond {rm : RoomRec} (x : CondId) (v : Cond) (h : rm.factorsInRange) :
    (rm.putCond x v).factorsInRange := by
  cases x <;> exact h

theorem RoomRec.factorsInRange_writeAlarms {rm : RoomRec} (set : BitVec 16) (a : AlarmCfg) (h : rm.factorsInRange) :
    (rm.writeAlarms set a).factorsInRange := by
  unfold RoomRec.writeAlarms
  exact RoomRec.factorsInRange_congr h rfl rfl rfl rfl

/-! ### The factors of the part -/

/-- Every law entry is a gain in range, and every room's factors lie in their ranges (R59, R64). -/
def State.factorsInRange (s : State) : Prop := (∀ f : Fin 101, s.law[f] ≤ 131071) ∧ ∀ r : Room, (s.room r).factorsInRange

/-- The invariants of paths and factors say it of the part. -/
theorem State.factorsInRange_of_ok {s : State} (hp : s.pathsOk) (hf : s.factorsOk) : s.factorsInRange := by
  refine ⟨hf.1, fun r => ?_⟩
  obtain ⟨hgain, ⟨hstep, hdip⟩, -⟩ := hf.2 r
  refine ⟨hgain, ?_, Path.factorInRange_of_ok (hp r)⟩
  cases hs : (s.room r).dip.stage with
  | idle =>
    rw [hs] at hdip
    obtain ⟨-, hd, -⟩ := hdip
    exact hd.le
  | descent => rw [hs] at hdip; exact hdip.trans_le (dipFactor_le .descent hstep)
  | ascent => rw [hs] at hdip; exact hdip.trans_le (dipFactor_le .ascent hstep)

theorem State.factorsInRange_of_rooms {s t : State} (h : s.factorsInRange) (hl : t.law = s.law)
    (hr : ∀ r, (s.room r).factorsInRange → (t.room r).factorsInRange) : t.factorsInRange :=
  ⟨hl ▸ h.1, fun r => hr r (h.2 r)⟩

theorem State.factorsInRange_congr {s t : State} (h : s.factorsInRange) (hl : t.law = s.law) (hr : t.rooms = s.rooms) :
    t.factorsInRange :=
  State.factorsInRange_of_rooms h hl fun r hq => by unfold State.room at hq ⊢; rw [hr]; exact hq

theorem State.factorsInRange_modRoom {s : State} {r : Room} {f : RoomRec → RoomRec} (h : s.factorsInRange)
    (hf : (s.room r).factorsInRange → (f (s.room r)).factorsInRange) : (s.modRoom r f).factorsInRange := by
  refine State.factorsInRange_of_rooms h (State.modRoom_law s r f) fun q hq => ?_
  rw [State.room_modRoom]
  split
  · exact hf (h.2 r)
  · exact hq

theorem State.factorsInRange_mapRooms {s : State} {f : RoomRec → RoomRec} (h : s.factorsInRange)
    (hf : ∀ rm : RoomRec, rm.factorsInRange → (f rm).factorsInRange) : (s.mapRooms f).factorsInRange :=
  State.factorsInRange_of_rooms h (State.mapRooms_law s f) fun q hq => by rw [State.room_mapRooms]; exact hf _ hq

/-- As a sample period opens every room's factors take their step (R25, R61, R65). -/
theorem State.factorsInRange_tick {s : State} (h : s.factorsInRange) : s.tick.factorsInRange :=
  State.factorsInRange_congr (State.factorsInRange_mapRooms h fun _ => RoomRec.factorsInRange_tick s.supply) rfl rfl

/-- A restart puts every gain at the law's and the other factors at their reset values (R207). -/
theorem State.factorsInRange_restartBegin {s : State} (h : s.factorsInRange) : s.restartBegin.factorsInRange := by
  have rooms := State.factorsInRange_mapRooms (f := RoomRec.restart s.law) h fun _ _ => RoomRec.factorsInRange_restart h.1
  exact State.factorsInRange_congr rooms rfl rfl

theorem State.factorsInRange_transit {s : State} {r : Room} {own : List NoticeBody} {f : RoomRec → RoomRec} (h : s.factorsInRange)
    (hf : ∀ rm : RoomRec, rm.factorsInRange → (f rm).factorsInRange) : (s.transit r own f).factorsInRange := by
  refine State.factorsInRange_of_rooms h (State.onlyRooms_law (State.onlyRooms_transit s r own f)) fun q hq => ?_
  by_cases e : q = r
  · subst e
    rw [State.transit_room_self]
    exact RoomRec.factorsInRange_afterTransit hf hq
  · rw [State.transit_room_ne s own f e]
    exact hq

theorem State.room_takeValues (s : State) (ws : Vector Word 256) (which : Room → Bool) (r : Room) :
    (s.takeValues ws which).room r =
      if which r then { s.room r with prog := Vector.ofFn fun c => s.laneValue ws (s.room r).activeMap.prog[c] } else s.room r := by
  simp [State.takeValues, State.room]

theorem State.factorsInRange_takeValues {s : State} (ws : Vector Word 256) (which : Room → Bool) (h : s.factorsInRange) :
    (s.takeValues ws which).factorsInRange := by
  refine State.factorsInRange_of_rooms h rfl fun r hr => ?_
  rw [State.room_takeValues]
  split
  · exact RoomRec.factorsInRange_congr hr rfl rfl rfl rfl
  · exact hr

theorem State.factorsInRange_stepDecode {s : State} (which : Room → Bool) (h : s.factorsInRange) :
    (s.stepDecode which).factorsInRange := by
  refine State.factorsInRange_of_rooms h rfl fun r hr => ?_
  rw [State.room_stepDecode]
  split
  · exact RoomRec.factorsInRange_congr hr rfl rfl rfl rfl
  · exact hr

theorem State.factorsInRange_handOn {s : State} (r : Room) (c : DipChange) (h : s.factorsInRange) : (s.handOn r c).factorsInRange := by
  have applied := State.factorsInRange_modRoom (r := r) (f := fun rm => rm.applyChange c) h (RoomRec.factorsInRange_applyChange c)
  unfold State.handOn
  split
  · exact State.factorsInRange_modRoom h fun hr => RoomRec.factorsInRange_congr hr rfl (Dip.hand_d _ _ _) rfl rfl
  · split
    · exact h
    · dsimp only
      split <;> exact applied

theorem State.factorsInRange_dipBottom {s : State} (r : Room) (h : s.factorsInRange) : (s.dipBottom r).factorsInRange := by
  have bottom := State.factorsInRange_modRoom (r := r) h RoomRec.factorsInRange_bottom
  unfold State.dipBottom
  dsimp only
  split <;> exact bottom

theorem State.factorsInRange_setLaw {s : State} {law : Vector Nat 101} (hlaw : ∀ f : Fin 101, law[f] ≤ 131071)
    (h : s.factorsInRange) : ({ s with law := law } : State).factorsInRange :=
  ⟨hlaw, h.2⟩

/-- A load of the fader law clamps every gain that it writes (R59). -/
theorem State.factorsInRange_loadFaderLaw {s : State} (body : List Payload) (h : s.factorsInRange) :
    (s.loadFaderLaw body).1.factorsInRange := by
  unfold State.loadFaderLaw
  dsimp only
  split
  · exact h
  · refine State.factorsInRange_setLaw (fun f => ?_) h
    rw [Fin.getElem_fin, Vector.getElem_ofFn]
    split
    · exact Nat.min_le_left _ _
    · exact h.1 f

theorem State.factorsInRange_gain {s : State} {r : Room} {g : Gain} (h : s.factorsInRange)
    (hg : (∃ step ms, g = (s.room r).gain.set s.law step ms) ∨ (∃ yes, g = (s.room r).gain.setMute s.law yes) ∨
      g = (s.room r).gain.endFade) : (s.modRoom r fun rm => { rm with gain := g }).factorsInRange := by
  refine State.factorsInRange_modRoom h fun ⟨hgain, hdip, hpath⟩ => ⟨?_, hdip, hpath⟩
  rcases hg with ⟨step, ms, rfl⟩ | ⟨yes, rfl⟩ | rfl
  · exact Gain.ok_set hgain h.1 step ms
  · exact Gain.ok_setMute hgain h.1 yes
  · exact Gain.ok_endFade hgain

theorem State.factorsInRange_commitLoad {s : State} {r : Room} {rm : RoomRec} (h : s.factorsInRange)
    (hw : (∃ i e, rm = (s.room r).writeEntry i e) ∨
      (∃ n c body first count, rm = (s.room r).setBank n (((s.room r).bank n).load c body first count)) ∨
      (∃ n, rm = (s.room r).setBank n .cleared) ∨
      ∃ n, rm = (s.room r).setBank n ((s.room r).bank (s.room r).bankInService)) : (s.commitLoad r rm).factorsInRange := by
  have loaded : rm.factorsInRange := by
    rcases hw with ⟨i, e, rfl⟩ | ⟨n, c, body, first, count, rfl⟩ | ⟨n, rfl⟩ | ⟨n, rfl⟩
    · exact h.2 r
    all_goals exact RoomRec.factorsInRange_setBank n _ (h.2 r)
  exact State.factorsInRange_modRoom (f := fun _ => { rm with commitment := rm.charge }) h fun _ => loaded

theorem State.factorsInRange_raiseCond {s : State} (r : Room) (x : CondId) (p n : Nat) (h : s.factorsInRange) :
    (s.raiseCond r x p n).factorsInRange := by
  have put (u : Cond) (k : BitVec 16) := State.factorsInRange_modRoom (r := r)
    (f := fun rm => { rm.putCond x u with unlisted := k }) h (RoomRec.factorsInRange_putCond x u)
  unfold State.raiseCond
  dsimp only
  split <;> exact put _ _

theorem State.factorsInRange_clearCond {s : State} (r : Room) (x : CondId) (h : s.factorsInRange) :
    (s.clearCond r x).factorsInRange :=
  State.factorsInRange_modRoom (r := r) (f := fun rm => rm.putCond x .quiet) h (RoomRec.factorsInRange_putCond x _)

theorem State.factorsInRange_ackOne {s : State} (r : Room) (x : CondId) (n m : Nat) (h : s.factorsInRange) :
    (State.ackOne r (s, n, m) x).1.factorsInRange := by
  have put := State.factorsInRange_modRoom (r := r) (f := fun rm => rm.putCond x ⟨.heldAck, 0, false⟩) h
    (RoomRec.factorsInRange_putCond x _)
  unfold State.ackOne
  dsimp only
  split
  · exact put
  · exact h

/-! ### Every move, turn and command -/

theorem RoomRec.SameCore.factorsInRange {a b : RoomRec} (h : a.SameCore b) (ha : a.factorsInRange) : b.factorsInRange :=
  RoomRec.factorsInRange_congr ha h.gain (congrArg Dip.d h.dip) (by rw [h.path]) (by rw [h.path])

theorem State.factorsInRange_reset : State.reset.factorsInRange := by
  refine ⟨fun f => ?_, fun r => ?_⟩
  · show (Vector.ofFn fun f : Fin 101 => 65536 * f.val / 70)[f.val] ≤ 131071
    rw [Vector.getElem_ofFn]
    omega
  · have hroom : State.reset.room r = RoomRec.reset := Vector.getElem_replicate _
    rw [hroom]
    exact ⟨Gain.ok_of_still (by decide) rfl, Nat.le_refl _, Path.factorInRange_of_still (Nat.zero_le _) rfl⟩

/-- Every move keeps the factors in range, by what it does to the records; of its guards it takes only what a gain or a ramp is
set to. -/
theorem Move.factorsInRange {s t : State} (hm : Move s t) (h : s.factorsInRange) : t.factorsInRange := by
  cases hm with
  | quiet part rooms => exact State.factorsInRange_of_rooms h part.law fun r => (rooms r).factorsInRange
  | tick _ => exact State.factorsInRange_tick h
  | restart => exact State.factorsInRange_restartBegin h
  | asserted => exact State.factorsInRange_mapRooms (State.factorsInRange_congr h rfl rfl) fun _ => id
  | placed _ => exact State.factorsInRange_mapRooms h fun _ => id
  | newBlock _ _ _ =>
    have rooms := State.factorsInRange_mapRooms (f := RoomRec.newBlock) h fun _ => id
    exact State.factorsInRange_congr rooms rfl rfl
  | values ws which => exact State.factorsInRange_takeValues ws which h
  | chains which => exact State.factorsInRange_stepDecode which h
  | ramp r ph p1 len _ _ h1 =>
    exact State.factorsInRange_modRoom h fun ⟨hgain, hdip, hpath⟩ =>
      ⟨hgain, hdip, Path.factorInRange_beginRamp hpath ph (h1 ▸ Nat.zero_le _) len⟩
  | onAir r _ _ => exact State.factorsInRange_modRoom h (RoomRec.factorsInRange_toPlain .live)
  | park r _ => exact State.factorsInRange_transit h fun _ => RoomRec.factorsInRange_toParked
  | off r => exact State.factorsInRange_transit h fun _ => RoomRec.factorsInRange_toOff
  | halt r _ => exact State.factorsInRange_transit h fun _ => RoomRec.factorsInRange_toHalted
  | listen r _ _ => exact State.factorsInRange_transit h fun _ => RoomRec.factorsInRange_toSettling
  | prove r own _ => exact State.factorsInRange_transit h fun _ => RoomRec.factorsInRange_toProve
  | goLive r _ _ => exact State.factorsInRange_transit h fun _ => RoomRec.factorsInRange_toLive
  | relive r _ => exact State.factorsInRange_transit h fun _ => RoomRec.factorsInRange_toLive
  | cancel r _ => exact State.factorsInRange_transit h fun _ => RoomRec.factorsInRange_toPlain .ready
  | proofEnd r rec _ => exact State.factorsInRange_transit h fun _ => RoomRec.factorsInRange_toPlain .ready
  | loss r own _ => exact State.factorsInRange_transit h fun _ => RoomRec.factorsInRange_toDebouncing
  | found r _ _ => exact State.factorsInRange_transit h fun _ => RoomRec.factorsInRange_toPlain .ready
  | gain r g hg => exact State.factorsInRange_gain h hg
  | handOn r c => exact State.factorsInRange_handOn r c h
  | bottom r _ => exact State.factorsInRange_dipBottom r h
  | ascent r _ => exact State.factorsInRange_modRoom h fun ⟨hgain, _, hpath⟩ => ⟨hgain, Nat.le_refl _, hpath⟩
  | law body => exact State.factorsInRange_loadFaderLaw body h
  | load r rm _ hw => exact State.factorsInRange_commitLoad h hw
  | trims r n trim => exact State.factorsInRange_modRoom h (RoomRec.factorsInRange_setBank n _)
  | raise r x p n _ _ => exact State.factorsInRange_raiseCond r x p n h
  | clear r x _ => exact State.factorsInRange_clearCond r x h
  | judged r x truth _ => exact State.factorsInRange_modRoom h (RoomRec.factorsInRange_putCond x _)
  | ack r x n m => exact State.factorsInRange_ackOne r x n m h
  | alarmEntry r set a => exact State.factorsInRange_modRoom h (RoomRec.factorsInRange_writeAlarms set a)
  | absence | record | settled | setRoom | draftClear | draftAppend | commit | rewind | timecode | advance | jump =>
    exact State.factorsInRange_modRoom h fun hr => RoomRec.factorsInRange_congr hr rfl rfl rfl rfl
  | lanes ws later =>
    delta State.takeLanes
    exact State.factorsInRange_congr h rfl rfl
  | released | storeReady | restartDone | input | ended => exact State.factorsInRange_congr h rfl rfl

theorem Turn.factorsInRange {s t : State} (ht : Turn s t) (h : s.factorsInRange) : t.factorsInRange := by
  cases ht with
  | move hm => exact hm.factorsInRange h
  | desk m out => exact State.factorsInRange_congr h rfl rfl
  | close _ => exact State.factorsInRange_congr h rfl rfl

/-- A full reset puts every factor at its reset value; any other command is a run of turns. -/
theorem exec_factorsInRange {i : Instr} {s t : State} (he : exec i s = .next t) (h : s.factorsInRange) : t.factorsInRange := by
  rcases exec_turns i s t he with ⟨line, -, rfl⟩ | turns
  · exact State.factorsInRange_reset
  · exact turns.keeps (fun _ _ => Turn.factorsInRange) h

theorem step_factorsInRange {s t : State} (hs : step s = .next t) (h : s.factorsInRange) : t.factorsInRange := by
  unfold step at hs
  split at hs
  · cases hs
    exact h
  · exact exec_factorsInRange (s := { s with pending := _ }) hs h

/-- Settles O59: the factors in range are an invariant of every step, and a fade or a ramp stands between its ends by the value
that it has at its step. -/
theorem gainDipAndPathInRange : Obligations.GainDipAndPathInRange := by
  intro s t hpaths hfactors hs r
  obtain ⟨⟨hg, hfade⟩, hd, hp, hramp⟩ := (step_factorsInRange hs (State.factorsInRange_of_ok hpaths hfactors)).2 r
  refine ⟨hg, hd, hp, fun f hf => ?_, fun q hq => ?_⟩
  · obtain ⟨-, -, -, -, hn, hv⟩ := hfade f hf
    exact hv ▸ Fade.value_between hn
  · obtain ⟨-, -, hn, hv⟩ := hramp q hq
    exact hv ▸ Ramp.value_between hn

end Sys2Proof.Machine
end

section
/-! What a step keeps: an invariant that every turn keeps, and that a full reset meets, is kept by every step. And what holds of every
room's record, over the ways in which a move changes the records. -/

namespace Sys2Proof.Machine

/-! ### From the turns of a command to the step -/

/-- An invariant that does not look at the queue of commands, that a full reset meets and that every turn keeps, is kept by a step. -/
theorem step_keeps {P : State → Prop} (hq : ∀ (s : State) (l : List Instr), P s → P { s with pending := l })
    (hr : ∀ (s : State) (line : Bool), P (s.fullReset line)) (ht : ∀ s t, Turn s t → P s → P t) {s t : State}
    (hs : step s = .next t) (h : P s) : P t := by
  unfold step at hs
  split at hs
  · cases hs
    exact h
  · rename_i c rest _
    rcases exec_turns c { s with pending := rest } t hs with ⟨line, -, rfl⟩ | turns
    · exact hr _ line
    · exact turns.keeps ht (hq s rest h)

/-- Every room of the reset part is at its reset record. -/
theorem State.room_reset (r : Room) : State.reset.room r = RoomRec.reset := Vector.getElem_replicate _

theorem State.room_fullReset (s : State) (line : Bool) (r : Room) : (s.fullReset line).room r = RoomRec.reset := State.room_reset r

/-! ### What holds of every room -/

section
variable {Q : Room → RoomRec → Prop} {s : State} {r : Room} {f : RoomRec → RoomRec}

theorem State.forall_congr {t : State} (h : ∀ q, Q q (s.room q)) (hr : t.rooms = s.rooms) (q : Room) : Q q (t.room q) := by
  have e : t.room q = s.room q := congrArg (fun v : Vector RoomRec 12 => v[q]) hr
  rw [e]
  exact h q

theorem State.forall_modRoom (h : ∀ q, Q q (s.room q)) (hf : Q r (f (s.room r))) (q : Room) : Q q ((s.modRoom r f).room q) := by
  rw [State.room_modRoom]
  split
  · subst_vars
    exact hf
  · exact h q

theorem State.forall_mapRooms (hf : ∀ q, Q q (f (s.room q))) (q : Room) : Q q ((s.mapRooms f).room q) := by
  rw [State.room_mapRooms]
  exact hf q

theorem State.forall_transit {own : List NoticeBody} (h : ∀ q, Q q (s.room q)) (hf : Q r ((s.room r).afterTransit f)) (q : Room) :
    Q q ((s.transit r own f).room q) := by
  by_cases e : q = r
  · subst e
    rw [State.transit_room_self]
    exact hf
  · rw [State.transit_room_ne s own f e]
    exact h q

theorem State.forall_takeValues {ws : Vector Word 256} {which : Room → Bool} (h : ∀ q, Q q (s.room q))
    (hf : ∀ q, Q q { s.room q with prog := Vector.ofFn fun c => s.laneValue ws (s.room q).activeMap.prog[c] }) (q : Room) :
    Q q ((s.takeValues ws which).room q) := by
  rw [State.room_takeValues]
  split
  · exact hf q
  · exact h q

theorem State.forall_stepDecode {which : Room → Bool} (h : ∀ q, Q q (s.room q))
    (hf : ∀ q, Q q { s.room q with decode := (s.room q).decodeAfter (s.activeProfile (s.room q)) }) (q : Room) :
    Q q ((s.stepDecode which).room q) := by
  rw [State.room_stepDecode]
  split
  · exact hf q
  · exact h q

/-- The ways of the dip machine with a change: it goes to the dip of a room in LIVE, or is applied at once, or is none. -/
theorem State.forall_handOn {c : DipChange} (h : ∀ q, Q q (s.room q))
    (hl : (s.room r).path.state = .live → Q r { s.room r with dip := (s.room r).dip.hand ((s.room r).isActive c) c })
    (ha : (s.room r).path.state ≠ .live → Q r ((s.room r).applyChange c)) (q : Room) : Q q ((s.handOn r c).room q) := by
  unfold State.handOn
  split
  · exact State.forall_modRoom (f := fun rm => { rm with dip := rm.dip.hand (rm.isActive c) c }) h (hl ‹_›) q
  · split
    · exact h q
    · have applied := State.forall_modRoom (f := fun rm => rm.applyChange c) h (ha ‹_›) q
      dsimp only
      split <;> exact applied

theorem State.forall_dipBottom (h : ∀ q, Q q (s.room q)) (hb : Q r (s.room r).bottom) (q : Room) : Q q ((s.dipBottom r).room q) := by
  have bottom := State.forall_modRoom (f := RoomRec.bottom) h hb q
  unfold State.dipBottom
  dsimp only
  split <;> exact bottom

theorem State.forall_raiseCond {x : CondId} {p n : Nat} (h : ∀ q, Q q (s.room q))
    (hf : ∀ u k, Q r { (s.room r).putCond x u with unlisted := k }) (q : Room) : Q q ((s.raiseCond r x p n).room q) := by
  have put (u : Cond) (k : BitVec 16) := State.forall_modRoom (f := fun rm => { rm.putCond x u with unlisted := k }) h (hf u k) q
  unfold State.raiseCond
  dsimp only
  split <;> exact put _ _

theorem State.forall_ackOne {x : CondId} {n m : Nat} (h : ∀ q, Q q (s.room q))
    (hf : Q r ((s.room r).putCond x ⟨.heldAck, 0, false⟩)) (q : Room) : Q q ((State.ackOne r (s, n, m) x).1.room q) := by
  have put := State.forall_modRoom (f := fun rm => rm.putCond x ⟨.heldAck, 0, false⟩) h hf q
  unfold State.ackOne
  dsimp only
  split
  · exact put
  · exact h q

theorem State.forall_commitLoad {rm : RoomRec} (h : ∀ q, Q q (s.room q)) (hf : Q r { rm with commitment := rm.charge }) (q : Room) :
    Q q ((s.commitLoad r rm).room q) :=
  State.forall_modRoom (f := fun _ => { rm with commitment := rm.charge }) h hf q

theorem State.room_setLaw (s : State) (law : Vector Nat 101) (q : Room) : ({ s with law := law } : State).room q = s.room q := rfl

/-- LOAD_FADER_LAW touches no room (R59). -/
theorem State.room_loadFaderLaw (s : State) (body : List Payload) (q : Room) : (s.loadFaderLaw body).1.room q = s.room q := by
  rw [State.loadFaderLaw]
  split
  · rfl
  · exact State.room_setLaw s _ q

end

theorem State.setLaw_committedTotal (s : State) (law : Vector Nat 101) :
    ({ s with law := law } : State).committedTotal = s.committedTotal := rfl

theorem State.loadFaderLaw_committedTotal (s : State) (body : List Payload) :
    (s.loadFaderLaw body).1.committedTotal = s.committedTotal := by
  rw [State.loadFaderLaw]
  split
  · rfl
  · exact State.setLaw_committedTotal s _

/-! ### Sums over the rooms -/

/-- With one room's record replaced a sum over the rooms loses its old share and gains the new. -/
theorem State.sum_modRoom (g : RoomRec → Nat) (s : State) (r : Room) (f : RoomRec → RoomRec) :
    ((List.finRange 12).map fun q : Room => g ((s.modRoom r f).room q)).sum + g (s.room r) =
      ((List.finRange 12).map fun q : Room => g (s.room q)).sum + g (f (s.room r)) := by
  have sum (u : State) : ((List.finRange 12).map fun q : Room => g (u.room q)).sum = ∑ q : Room, g (u.room q) :=
    (Fin.sum_univ_def _).symm
  rw [sum, sum, ← Finset.add_sum_erase _ _ (Finset.mem_univ r), ← Finset.add_sum_erase _ _ (Finset.mem_univ r)]
  have rest : ∑ q ∈ Finset.univ.erase r, g ((s.modRoom r f).room q) = ∑ q ∈ Finset.univ.erase r, g (s.room q) :=
    Finset.sum_congr rfl fun q hq => by rw [State.room_modRoom_ne s f (Finset.ne_of_mem_erase hq)]
  rw [rest, State.room_modRoom_self]
  omega

theorem State.le_sum (g : RoomRec → Nat) (s : State) (r : Room) :
    g (s.room r) ≤ ((List.finRange 12).map fun q : Room => g (s.room q)).sum :=
  List.le_sum_of_mem (List.mem_map.2 ⟨r, List.mem_finRange r, rfl⟩)

/-! ### A change of a room's state -/

theorem RoomRec.markEntry_keeps {P : RoomRec → Prop} {rm : RoomRec} (left : RoomState) (h : P rm)
    (hm : ∀ x : RoomRec, P x → P { x with path := { x.path with enteredInBlock := true } }) : P (rm.markEntry left) := by
  unfold RoomRec.markEntry
  split
  · exact hm _ h
  · exact h

/-- What the end of a dip, the change itself and the mark of an entry keep, a change of a room's state keeps (R7, R68, R119). -/
theorem RoomRec.afterTransit_keeps {P : RoomRec → Prop} {rm : RoomRec} {f : RoomRec → RoomRec} (h : P rm) (hd : P rm → P rm.endDip)
    (hf : ∀ x, P x → P (f x)) (hm : ∀ x : RoomRec, P x → P { x with path := { x.path with enteredInBlock := true } }) :
    P (rm.afterTransit f) := by
  unfold RoomRec.afterTransit
  refine RoomRec.markEntry_keeps _ (hf _ ?_) hm
  split
  · exact hd h
  · exact h

end Sys2Proof.Machine
end

section
/-! Rooms and the output path (01): every step keeps the path invariant (O52). Each change of a path is looked at once; a room that is
not on the air needs no word about its ramp. -/

namespace Sys2Proof.Machine

/-! ### What the invariant says of a path by its state -/

/-- A room in a state other than LIVE: its phase has no ramp, p is 0, and the rest is what Table 1-1 says of its state (R5, R6, R12,
R26). -/
theorem Path.ok_of_still {p : Path} (st : RoomState) (ph : Phase) (hst : p.state = st) (hph : p.phase = ph)
    (hok : st.hasPhase ph = true) (hs : st ≠ .live) (hproven : p.proven = true → p.allPassed = true ∧ (st = .ready ∨ st = .parked))
    (hair : st = .parked → p.proven = true) (hhalt : p.halt = .rackLost ↔ st = .halted) (hp : p.p = 0)
    (hr : p.ramp = none) (ha : p.rackAbsence < 2400) : p.ok := by
  subst hst hph
  refine ⟨hok, fun h => ?_, fun h => hair (h.resolve_left hs), hhalt, by omega, fun _ => hp, fun h => absurd h.1 hs, ?_, ha⟩
  · obtain ⟨hall, hst⟩ := hproven h
    exact ⟨hall, hst.imp_right .inr⟩
  · have hramp : p.phase.ramp? = none := by
      cases hst : p.state <;> cases hph' : p.phase <;> simp_all [RoomState.hasPhase, Phase.ramp?]
    simp [Path.rampOk, hr, hramp]

/-- A room neither in LIVE nor in PARKED that is not proven. -/
theorem Path.ok_of_unproven {p : Path} (st : RoomState) (ph : Phase) (hst : p.state = st) (hph : p.phase = ph)
    (hok : st.hasPhase ph = true) (hs : st ≠ .live ∧ st ≠ .parked) (hproven : p.proven = false)
    (hhalt : p.halt = .rackLost ↔ st = .halted) (hp : p.p = 0) (hr : p.ramp = none) (ha : p.rackAbsence < 2400) : p.ok :=
  Path.ok_of_still st ph hst hph hok hs.1 (by simp [hproven]) (fun h => absurd h hs.2) hhalt hp hr ha

/-- A room in LIVE with a ramp of its phase that has just begun from the present p (R25). -/
theorem Path.ok_beginRamp {p : Path} {ph : Phase} {p1 len : Nat} (hph : ph.ramp? = some (p1, len)) (hs : p.state = .live)
    (hproven : p.proven = true) (hall : p.allPassed = true) (hhalt : p.halt ≠ .rackLost) (hp : p.p ≤ 65536)
    (ha : p.rackAbsence < 2400) : (p.beginRamp ph p1 len).ok := by
  have hlive : RoomState.hasPhase .live ph = true := by cases ph <;> simp_all [Phase.ramp?, RoomState.hasPhase]
  have hnone : ph ≠ .none := fun h => by simp [h, Phase.ramp?] at hph
  refine ⟨?_, fun _ => ⟨hall, .inr (.inl hs)⟩, fun _ => hproven, ?_, hp, fun h => absurd hs h, fun h => absurd h.2 hnone, ?_, ha⟩
  · show p.state.hasPhase ph = true
    rw [hs, hlive]
  · show p.halt = .rackLost ↔ p.state = .halted
    simp [hs, hhalt]
  · unfold Path.rampOk
    rw [show (p.beginRamp ph p1 len).phase.ramp? = some (p1, len) from hph]
    exact ⟨rfl, rfl, Nat.zero_le _, hp, (interp_zero _ _ _).symm⟩

/-- The counts, the marks and the last rack word are nothing that the invariant looks at. -/
theorem Path.ok_congr {a b : Path} (h : a.ok) (e : b = { a with
    lastRack := b.lastRack, seqCount := b.seqCount, nextAttempt := b.nextAttempt
    debounceHeld := b.debounceHeld, enteredInBlock := b.enteredInBlock, proofPos := b.proofPos
    rackTaken := b.rackTaken, pilotSent := b.pilotSent }) : b.ok := by
  rw [e]
  exact h

section
variable {p : Path} (h : p.ok)
include h

theorem Path.ok.hasPhase : p.state.hasPhase p.phase = true := by
  obtain ⟨h, -⟩ := h
  exact h

theorem Path.ok.live_of_ramp {e : Nat × Nat} (hph : p.phase.ramp? = some e) : p.state = .live := by
  have hp := h.hasPhase
  cases hs : p.state <;> cases hph' : p.phase <;> simp_all [RoomState.hasPhase, Phase.ramp?]

theorem Path.ok.proven_air (hs : p.state = .live ∨ p.state = .parked) : p.proven = true ∧ p.allPassed = true := by
  obtain ⟨-, hall, hair, -⟩ := h
  exact ⟨hair hs, (hall (hair hs)).1⟩

theorem Path.ok.unproven (h1 : p.state ≠ .ready) (h2 : p.state ≠ .live) (h3 : p.state ≠ .parked) : p.proven = false := by
  obtain ⟨-, hall, -⟩ := h
  cases hp : p.proven
  · rfl
  · obtain ⟨-, hs⟩ := hall hp
    simp_all

theorem Path.ok.unhalted (hs : p.state ≠ .halted) : p.halt ≠ .rackLost := by
  obtain ⟨-, -, -, hhalt, -⟩ := h
  exact fun e => hs (hhalt.mp e)

theorem Path.ok.p_zero (hs : p.state ≠ .live) : p.p = 0 := by
  obtain ⟨-, -, -, -, -, hp, -⟩ := h
  exact hp hs

theorem Path.ok.p_le : p.p ≤ 65536 := by
  obtain ⟨-, -, -, -, hp, -⟩ := h
  exact hp

theorem Path.ok.absence : p.rackAbsence < 2400 := by
  obtain ⟨-, -, -, -, -, -, -, -, ha⟩ := h
  exact ha

/-- No ramp is in flight outside LIVE. -/
theorem Path.ok.no_ramp (hs : p.state ≠ .live) : p.ramp = none := by
  have hph : p.phase.ramp? = none := by
    cases e : p.phase.ramp? with
    | none => rfl
    | some x => exact absurd (h.live_of_ramp e) hs
  obtain ⟨-, -, -, -, -, -, -, hr, -⟩ := h
  cases e : p.ramp with
  | none => rfl
  | some q => simp [Path.rampOk, e, hph] at hr

/-! ### One change of a path after another -/

theorem Path.ok.setAbsence {n : Nat} (hn : n < 2400) : ({ p with rackAbsence := n } : Path).ok := by
  obtain ⟨h1, h2, h3, h4, h5, h6, h7, h8, -⟩ := h
  exact ⟨h1, h2, h3, h4, h5, h6, h7, h8, hn⟩

/-- In PROVE nothing is proven, so the record is free (R18, R26). -/
theorem Path.ok.setRecord (rec : Vector ProofEntry 16) (hs : p.state = .prove) : ({ p with record := rec } : Path).ok :=
  Path.ok_of_unproven (p := { p with record := rec }) .prove p.phase hs rfl (hs ▸ h.hasPhase) (by decide) (h.unproven (by simp [hs]) (by simp [hs]) (by simp [hs]))
    (iff_of_false (h.unhalted (by simp [hs])) (by decide)) (h.p_zero (by simp [hs])) (h.no_ramp (by simp [hs])) h.absence

/-- The record may change where every fitted channel's being PASSED does not. -/
theorem Path.ok.ok_record {rec : Vector ProofEntry 16} (hr : ({ p with record := rec } : Path).allPassed = p.allPassed) :
    ({ p with record := rec } : Path).ok := by
  obtain ⟨h1, h2, hrest⟩ := h
  exact ⟨h1, fun hp => ⟨hr.trans (h2 hp).1, (h2 hp).2⟩, hrest⟩

/-- A ramp in flight takes a step, and p with it (R25). -/
theorem Path.ok.ok_stepRamp {q : Ramp} (hq : p.ramp = some q) : ({ p with p := q.advance.value, ramp := some q.advance } : Path).ok := by
  have hlive : p.state = .live := by
    by_contra hs
    simp [h.no_ramp hs] at hq
  have range := (Path.factorInRange_tick (Path.factorInRange_of_ok h)).1
  rw [p.tick_p_ramp.1, hq] at range
  obtain ⟨h1, h2, h3, h4, -, -, -, hr, ha⟩ := h
  have hramp : ({ p with p := q.advance.value, ramp := some q.advance } : Path).rampOk ∧ p.phase ≠ .none := by
    unfold Path.rampOk at hr ⊢
    rw [hq] at hr
    cases he : p.phase.ramp? with
    | none => simp [he] at hr
    | some e =>
      simp only [he] at hr
      obtain ⟨hp1, hlen, -, hp0, -⟩ := hr
      exact ⟨⟨hp1, hlen, Nat.min_le_left _ _, hp0, rfl⟩, fun hn => by simp [hn, Phase.ramp?] at he⟩
  exact ⟨h1, h2, h3, h4, range, fun hs => absurd hlive hs, fun hn => absurd hn.2 hramp.2, hramp.1, ha⟩

end

/-- An attempt that begins counts itself in the record, and no channel's result changes (R18). -/
theorem Path.allPassed_beginAttempt (p : Path) (pos : ProofPos) :
    ({ p with record := (p.beginAttempt pos).record } : Path).allPassed = p.allPassed := by
  have hres (k : Chan) : (p.beginAttempt pos).record[k].result = p.record[k].result := by
    simp only [Path.beginAttempt, Path.modRecord, Fin.getElem_fin, Vector.getElem_set]
    split
    · rename_i e
      simp [e]
    · rfl
  exact congrArg (List.all (List.finRange 16)) (funext fun k => by rw [← hres k]; rfl)

/-- The counts of a path in a new sample period, ahead of its ramp (R15, R18, R19). -/
def Path.counted (p : Path) : Path :=
  match p.nextAttempt with
  | some pos => { p.beginAttempt pos with seqCount := 1 }
  | none =>
    match p.phase with
    | .settling => { p with seqCount := min Config.settling (p.seqCount + 1) }
    | .proving => { p with seqCount := min Config.pilotAttempt (p.seqCount + 1) }
    | _ => p

/-- A path's sample period: its counts, then a step of a ramp in flight (R15, R18, R25). -/
theorem Path.tick_eq (p : Path) : p.tick =
    { (p.counted.ramp.elim p.counted fun q => { p.counted with p := q.advance.value, ramp := some q.advance }) with
      debounceHeld := false, rackTaken := false, pilotSent := none } := by
  rw [show p.tick = { (match p.counted.ramp with
    | some r => { p.counted with p := r.advance.value, ramp := some r.advance }
    | none => p.counted) with debounceHeld := false, rackTaken := false, pilotSent := none } from rfl]
  cases p.counted.ramp <;> rfl

theorem Path.ok_counted {p : Path} (h : p.ok) : p.counted.ok := by
  unfold Path.counted
  split
  · exact Path.ok_congr (h.ok_record (p.allPassed_beginAttempt _)) rfl
  · split
    · exact Path.ok_congr h rfl
    · exact Path.ok_congr h rfl
    · exact h

theorem Path.ok_tick {p : Path} (h : p.ok) : p.tick.ok := by
  rw [Path.tick_eq]
  have h1 := Path.ok_counted h
  cases hr : p.counted.ramp with
  | none => exact Path.ok_congr h1 rfl
  | some q => exact Path.ok_congr (h1.ok_stepRamp hr) rfl

/-! ### Changes of a room's state (R7 to R25) -/

theorem RoomRec.endDip_path (rm : RoomRec) : rm.endDip.path = rm.path := by
  obtain ⟨-, -, hp⟩ := rm.applySlots_frame
  unfold RoomRec.endDip
  split
  · rfl
  · exact hp

theorem RoomRec.markEntry_path (rm : RoomRec) (left : RoomState) :
    (rm.markEntry left).path = { rm.path with enteredInBlock := (rm.markEntry left).path.enteredInBlock } := by
  unfold RoomRec.markEntry
  split <;> rfl

/-- The end of a dip and the mark of an entry are nothing that the invariant looks at. -/
theorem RoomRec.pathOk_afterTransit {rm : RoomRec} {f : RoomRec → RoomRec} (hf : ∀ x : RoomRec, x.path = rm.path → (f x).path.ok) :
    (rm.afterTransit f).path.ok := by
  unfold RoomRec.afterTransit
  rw [RoomRec.markEntry_path]
  refine Path.ok_congr (hf _ ?_) rfl
  split
  · exact rm.endDip_path
  · rfl

section
variable {rm : RoomRec}

theorem RoomRec.pathOk_toOff : rm.toOff.path.ok :=
  Path.ok_of_unproven .off .none rfl rfl rfl (by decide) rfl ⟨nofun, nofun⟩ rfl rfl (Nat.succ_pos _)

theorem RoomRec.pathOk_toHalted : rm.toHalted.path.ok :=
  Path.ok_of_unproven .halted .none rfl rfl rfl (by decide) rfl (iff_of_true rfl rfl) rfl rfl (Nat.succ_pos _)

variable (h : rm.path.ok)
include h

theorem RoomRec.pathOk_toParked (hs : rm.path.state = .live) : rm.toParked.path.ok := by
  obtain ⟨hproven, hall⟩ := h.proven_air (.inl hs)
  exact Path.ok_of_still .parked .none rfl rfl rfl (by decide) (fun _ => ⟨hall, .inr rfl⟩) (fun _ => hproven)
    (iff_of_false (h.unhalted (by simp [hs])) (by decide)) rfl rfl h.absence

/-- A room that is not proven enters READY with phase none (R16). -/
theorem RoomRec.pathOk_toReady (hs : rm.path.state = .listen) : (RoomRec.toPlain .ready rm).path.ok :=
  Path.ok_of_unproven .ready .none rfl rfl rfl (by decide) (h.unproven (by simp [hs]) (by simp [hs]) (by simp [hs]))
    (iff_of_false (h.unhalted (by simp [hs])) (by decide)) (h.p_zero (by simp [hs])) rfl h.absence

theorem RoomRec.pathOk_toReadyCancelled (hs : rm.path.state = .prove) : rm.toReadyCancelled.path.ok :=
  Path.ok_of_unproven .ready .none rfl rfl rfl (by decide) rfl (iff_of_false (h.unhalted (by simp [hs])) (by decide)) (h.p_zero (by simp [hs])) rfl
    h.absence

theorem RoomRec.pathOk_toDebouncing (hs : rm.path.state = .ready ∨ rm.path.state = .prove) : rm.toDebouncing.path.ok := by
  have hn : rm.path.state ≠ .halted ∧ rm.path.state ≠ .live := by rcases hs with hs | hs <;> simp [hs]
  exact Path.ok_of_unproven .listen .debouncing rfl rfl rfl (by decide) rfl (iff_of_false (h.unhalted hn.1) (by decide)) (h.p_zero hn.2) rfl
    (Nat.succ_pos _)

theorem RoomRec.pathOk_toSettling (hs : rm.path.state = .off ∨ rm.path.state = .halted) : rm.toSettling.path.ok := by
  have hn : rm.path.state ≠ .ready ∧ rm.path.state ≠ .live ∧ rm.path.state ≠ .parked := by rcases hs with hs | hs <;> simp [hs]
  unfold RoomRec.toSettling
  dsimp only
  split <;>
    exact Path.ok_of_unproven .listen .settling rfl rfl rfl (by decide) (h.unproven hn.1 hn.2.1 hn.2.2) ⟨nofun, nofun⟩ (h.p_zero hn.2.1) rfl
      (Nat.succ_pos _)

/-- An end of a proof: proven says of the record what the invariant wants (R19). -/
theorem RoomRec.pathOk_proofEnd (hs : rm.path.state = .prove) (rec : Vector ProofEntry 16) :
    ({ (RoomRec.toPlain .ready rm).path with record := rec, proven := ({ rm.path with record := rec } : Path).allPassed } : Path).ok :=
  Path.ok_of_still .ready .none rfl rfl rfl (by decide) (fun hp => ⟨hp, .inl rfl⟩) (fun hp => by cases hp)
    (iff_of_false (h.unhalted (by simp [hs])) (by decide)) (h.p_zero (by simp [hs])) rfl h.absence

/-- A proof without fitted channels ends at once, proven; any other one begins (R17). -/
theorem RoomRec.pathOk_toProve (hs : rm.path.state = .ready) : rm.toProve.path.ok := by
  have hhalt := h.unhalted (by simp [hs])
  unfold RoomRec.toProve
  dsimp only
  split
  · rename_i hn
    have hall : ({ rm.path with record := clearRecord, proven := true } : Path).allPassed = true := by
      simp only [Path.lowestFitted, Bool.and_true, List.find?_eq_none, List.mem_finRange, true_imp_iff, Bool.not_eq_true] at hn
      simp only [Path.allPassed, List.all_eq_true, List.mem_finRange, true_imp_iff, Bool.or_eq_true, Bool.not_eq_true']
      exact fun k => .inl (hn k)
    exact Path.ok_of_still .ready rm.path.phase hs rfl (hs ▸ h.hasPhase) (by decide) (fun _ => ⟨hall, .inl rfl⟩) (fun _ => rfl)
      (iff_of_false hhalt (by decide))
      (h.p_zero (by simp [hs])) (h.no_ramp (by simp [hs])) h.absence
  · exact Path.ok_of_unproven .prove .proving rfl rfl rfl (by decide) rfl (iff_of_false hhalt (by decide)) (h.p_zero (by simp [hs]))
      (h.no_ramp (by simp [hs])) h.absence

/-- A room that is proven enters LIVE (R20, R26). -/
theorem RoomRec.pathOk_toLive (hs : rm.path.state = .ready ∨ rm.path.state = .parked) (hp : rm.path.proven = true) :
    rm.toLive.path.ok := by
  have hn : rm.path.state ≠ .halted := by rcases hs with hs | hs <;> simp [hs]
  have hle := h.p_le
  have ha := h.absence
  have hh := h.unhalted hn
  obtain ⟨-, hall, -⟩ := h
  exact Path.ok_beginRamp (p := { rm.path with state := .live }) rfl rfl hp (hall hp).1 hh hle ha

/-- The ramp-in has reached its end, and p unity (R25). -/
theorem RoomRec.pathOk_onAir (hph : rm.path.phase = .rampingIn) (hd : rm.path.rampDue = true) : (RoomRec.toPlain .live rm).path.ok := by
  have hs : rm.path.state = .live := h.live_of_ramp (e := (65536, 480)) (by simp [hph, Phase.ramp?])
  obtain ⟨hproven, hall⟩ := h.proven_air (.inl hs)
  have hh := h.unhalted (by simp [hs])
  have ha := h.absence
  have hp : rm.path.p = 65536 := by
    obtain ⟨-, -, -, -, -, -, -, hr, -⟩ := h
    unfold Path.rampOk at hr
    cases e : rm.path.ramp with
    | none => simp [e, hph, Phase.ramp?] at hr
    | some q =>
      simp only [e, hph, Phase.ramp?] at hr
      simp only [Path.rampDue, e, decide_eq_true_eq] at hd
      obtain ⟨h1, h2, h3, -, h5⟩ := hr
      rw [h5, Ramp.value, h1, h2, show q.n = 480 by omega]
      simp [interp]
  exact ⟨rfl, fun _ => ⟨hall, .inr (.inl rfl)⟩, fun _ => hproven, iff_of_false hh nofun, by rw [show (RoomRec.toPlain .live rm).path.p = rm.path.p from rfl, hp], fun e => absurd rfl e,
    fun _ => hp, trivial, ha⟩

end

/-! ### Every move and every step -/

theorem RoomRec.bottom_path (rm : RoomRec) : rm.bottom.path = rm.path := by
  obtain ⟨-, -, hp⟩ := rm.applySlots_frame
  exact hp

theorem RoomRec.applyChange_path (rm : RoomRec) (c : DipChange) : (rm.applyChange c).path = rm.path := by
  cases c with
  | format i => rw [RoomRec.applyChange, RoomRec.applyFormat_eq]
  | source m => rfl
  | bank n => rfl

theorem RoomRec.setBank_path (rm : RoomRec) (n : BankName) (b : Bank) : (rm.setBank n b).path = rm.path := by cases n <;> rfl

/-- What a load leaves of the path (R110). -/
theorem RoomRec.loaded_path {rm0 rm : RoomRec} (h : (∃ i e, rm = rm0.writeEntry i e) ∨
    (∃ n c body first count, rm = rm0.setBank n ((rm0.bank n).load c body first count)) ∨
    (∃ n, rm = rm0.setBank n .cleared) ∨ ∃ n, rm = rm0.setBank n (rm0.bank rm0.bankInService)) : rm.path = rm0.path := by
  rcases h with ⟨i, e, rfl⟩ | ⟨n, c, body, first, count, rfl⟩ | ⟨n, rfl⟩ | ⟨n, rfl⟩
  · rfl
  all_goals exact RoomRec.setBank_path _ n _

theorem Path.ok_restart (p : Path) : p.restart.ok :=
  Path.ok_of_unproven .off .none rfl rfl rfl (by decide) rfl ⟨nofun, nofun⟩ rfl rfl (Nat.succ_pos _)

/-- Every move keeps the path of every room in order. -/
theorem Move.pathsOk {s t : State} (hm : Move s t) (h : s.pathsOk) : t.pathsOk := by
  have transit {r : Room} {own : List NoticeBody} {f : RoomRec → RoomRec}
      (hf : ∀ x : RoomRec, x.path = (s.room r).path → (f x).path.ok) : (s.transit r own f).pathsOk :=
    State.forall_transit (Q := fun _ rm => rm.path.ok) h (RoomRec.pathOk_afterTransit hf)
  have change {r : Room} {f : RoomRec → RoomRec} (hf : (f (s.room r)).path.ok) : (s.modRoom r f).pathsOk :=
    State.forall_modRoom (Q := fun _ rm => rm.path.ok) h hf
  have every {f : RoomRec → RoomRec} (hf : ∀ q, (f (s.room q)).path.ok) : (s.mapRooms f).pathsOk :=
    State.forall_mapRooms (Q := fun _ rm => rm.path.ok) hf
  have still {t : State} (ht : t.rooms = s.rooms) : t.pathsOk := State.forall_congr (Q := fun _ rm => rm.path.ok) h ht
  have same {r : Room} {f : RoomRec → RoomRec} (hf : (f (s.room r)).path = (s.room r).path) : (s.modRoom r f).pathsOk :=
    change (hf ▸ h r)
  cases hm with
  | quiet part rooms => exact fun r => Path.ok_congr (h r) (rooms r).path
  | absence r n hn => exact change ((h r).setAbsence hn)
  | record r rec hs => exact change ((h r).setRecord rec hs)
  | tick _ => exact every fun q => Path.ok_tick (h q)
  | settled r hph =>
    refine change (f := fun rm => { rm with path := { rm.path with phase := .debouncing, seqCount := 0, debounceHeld := true } }) ?_
    have hs : (s.room r).path.state = .listen := by
      have := (h r).hasPhase
      rw [hph] at this
      cases e : (s.room r).path.state <;> simp_all [RoomState.hasPhase]
    exact Path.ok_of_unproven .listen .debouncing hs rfl rfl (by decide)
      ((h r).unproven (by simp [hs]) (by simp [hs]) (by simp [hs])) (iff_of_false ((h r).unhalted (by simp [hs])) (by decide))
      ((h r).p_zero (by simp [hs])) ((h r).no_ramp (by simp [hs])) (h r).absence
  | ramp r ph p1 len hs hr h1 =>
    obtain ⟨hproven, hall⟩ := (h r).proven_air (.inl hs)
    have hph : ph.ramp? = some (p1, len) := by
      subst h1
      rcases hr with ⟨rfl, rfl⟩ | ⟨rfl, rfl⟩ | ⟨rfl, rfl⟩ <;> rfl
    exact change (Path.ok_beginRamp hph hs hproven hall ((h r).unhalted (by simp [hs])) (h r).p_le (h r).absence)
  | onAir r hph hd => exact change (RoomRec.pathOk_onAir (h r) hph hd)
  | park r hph =>
    have hs : (s.room r).path.state = .live := by
      rcases hph with e | e | e <;> exact (h r).live_of_ramp (by rw [e]; rfl)
    exact transit fun x hx => RoomRec.pathOk_toParked (hx ▸ h r) (hx ▸ hs)
  | off r => exact transit fun x _ => RoomRec.pathOk_toOff
  | halt r _ => exact transit fun x _ => RoomRec.pathOk_toHalted
  | listen r hs _ => exact transit fun x hx => RoomRec.pathOk_toSettling (hx ▸ h r) (hx ▸ hs)
  | prove r own hs => exact transit fun x hx => RoomRec.pathOk_toProve (hx ▸ h r) (hx ▸ hs)
  | goLive r hs hp => exact transit fun x hx => RoomRec.pathOk_toLive (hx ▸ h r) (hx ▸ .inl hs) (hx ▸ hp)
  | relive r hs => exact transit fun x hx => RoomRec.pathOk_toLive (hx ▸ h r) (hx ▸ .inr hs) (hx ▸ ((h r).proven_air (.inr hs)).1)
  | cancel r hs =>
    have hprove : (s.room r).path.state = .prove := by
      rcases hs with hs | hph
      · exact hs
      · have := (h r).hasPhase
        rw [hph] at this
        cases e : (s.room r).path.state <;> simp_all [RoomState.hasPhase]
    exact transit fun x hx => RoomRec.pathOk_toReadyCancelled (hx ▸ h r) (hx ▸ hprove)
  | proofEnd r rec hs =>
    refine transit fun x hx => ?_
    rw [← hx]
    exact RoomRec.pathOk_proofEnd (hx ▸ h r) (hx ▸ hs) rec
  | loss r own hs => exact transit fun x hx => RoomRec.pathOk_toDebouncing (hx ▸ h r) (hx ▸ hs)
  | found r hs _ => exact transit fun x hx => RoomRec.pathOk_toReady (hx ▸ h r) (hx ▸ hs)
  | setRoom r fitted lo hi pol hs =>
    have hn : (s.room r).path.state ≠ .live ∧ (s.room r).path.state ≠ .parked ∧ (s.room r).path.state ≠ .halted := by
      rcases hs with hs | hs | hs <;> simp [hs]
    exact change (Path.ok_of_unproven _ _ rfl rfl (h r).hasPhase ⟨hn.1, hn.2.1⟩ rfl (iff_of_false ((h r).unhalted hn.2.2) hn.2.2)
      ((h r).p_zero hn.1) ((h r).no_ramp hn.1) (h r).absence)
  | handOn r c =>
    exact State.forall_handOn (Q := fun _ rm => rm.path.ok) h (fun _ => h r) fun _ => (RoomRec.applyChange_path _ c).symm ▸ h r
  | bottom r _ => exact State.forall_dipBottom (Q := fun _ rm => rm.path.ok) h ((RoomRec.bottom_path _).symm ▸ h r)
  | load r rm _ hw =>
    exact State.forall_commitLoad (Q := fun _ rm => rm.path.ok) h (show rm.path.ok from (RoomRec.loaded_path hw).symm ▸ h r)
  | trims r n trim => exact same (RoomRec.setBank_path _ n _)
  | raise r x p n _ _ => exact State.forall_raiseCond (Q := fun _ rm => rm.path.ok) h fun u k => by simpa using h r
  | clear r x _ => exact same (f := fun rm => rm.putCond x .quiet) (RoomRec.putCond_path _ x _)
  | judged r x truth _ => exact same (RoomRec.putCond_path _ x _)
  | ack r x n m => exact State.forall_ackOne (Q := fun _ rm => rm.path.ok) h (by simpa using h r)
  | law body => exact fun q => (State.room_loadFaderLaw s body q).symm ▸ h q
  | values ws which => exact State.forall_takeValues (Q := fun _ rm => rm.path.ok) h h
  | chains which => exact State.forall_stepDecode (Q := fun _ rm => rm.path.ok) h h
  | gain | ascent | alarmEntry | draftClear | draftAppend | commit | rewind | timecode | advance | jump => exact same rfl
  | asserted => exact State.forall_mapRooms (Q := fun _ rm => rm.path.ok) h
  | placed _ => exact every h
  | newBlock _ _ _ =>
    have rooms := every (f := RoomRec.newBlock) fun q => Path.ok_congr (h q) rfl
    exact State.forall_congr (Q := fun _ rm => rm.path.ok) rooms rfl
  | restart =>
    have rooms := every (f := RoomRec.restart s.law) fun q => Path.ok_restart _
    exact State.forall_congr (Q := fun _ rm => rm.path.ok) rooms rfl
  | released | storeReady | restartDone | input | ended => exact still rfl
  | lanes ws later =>
    delta State.takeLanes
    exact still rfl

theorem Turn.pathsOk {s t : State} (ht : Turn s t) (h : s.pathsOk) : t.pathsOk := by
  cases ht with
  | move hm => exact hm.pathsOk h
  | desk m out => exact h
  | close _ => exact h

theorem Path.ok_reset : Path.reset.ok :=
  Path.ok_of_unproven .off .none rfl rfl rfl (by decide) rfl ⟨nofun, nofun⟩ rfl rfl (Nat.succ_pos _)

theorem State.pathsOk_fullReset (s : State) (line : Bool) : (s.fullReset line).pathsOk := fun r => by
  rw [State.room_fullReset]
  exact Path.ok_reset

/-- Settles O52: every turn keeps every path in order, each change of a path by its own lemma. -/
theorem pathsKept : Obligations.PathsKept := fun _ _ h hs =>
  step_keeps (fun _ _ => id) State.pathsOk_fullReset (fun _ _ => Turn.pathsOk) hs h

end Sys2Proof.Machine
end

section
/-! In-band management (10): every step keeps the Management Unit in order (O53). A command is a run of moves, which only raise
notices, and an ending of its own: a request that completes, slot words, an outbound frame, or the close of the period. -/

namespace Sys2Proof.Machine

/-! ### How a command ends -/

/-- What a command does after its moves. -/
inductive Ending (u : State) : State → Prop where
  | moves : Ending u u
  | close : Ending u u.closePeriod
  | broken : Ending u u.breakAssembly
  | request (q : Request) : Ending u (u.breakAssembly.complete q)
  | slots (slots : Vector Word 4) : Ending u (u.takeSlots slots)
  | frame : Ending u u.sendFrame

/-- Every command but FULL_RESET is a run of moves and an ending. -/
theorem exec_ends (i : Instr) (s t : State) (h : exec i s = .next t) :
    (∃ line, i = .fullReset line ∧ t = s.fullReset line) ∨ ∃ u, Moves s u ∧ Ending u t := by
  rcases hq : request? i with _ | q
  · cases i <;> simp [request?] at hq
    all_goals
      have e := (Host.Outcome.next.inj h).symm
      subst e
    case fullReset => exact .inl ⟨_, rfl, rfl⟩
    all_goals refine .inr ?_
    case feedTrunkFrame => exact ⟨_, (Moves.openPeriod s).trans (.intake _ _ _), .slots _⟩
    case missingFeedFrame => exact ⟨_, (Moves.openPeriod s).trans (.intake _ _ _), .broken⟩
    case outboundFeedFrame => exact ⟨_, Moves.openPeriod s, .frame⟩
    case samplePeriod lines order =>
      obtain ⟨u, hu, -, e⟩ := Moves.samplePeriod s lines order
      rw [e]
      split
      · exact ⟨u, hu, .close⟩
      · exact ⟨u, hu, .moves⟩
    all_goals refine ⟨_, ?_, .moves⟩
    case supplyWarningAsserted => exact (Moves.openPeriod s).trans (.assertSupply _ _ _)
    case supplyWarningReleased => exact (Moves.openPeriod s).trans (.releaseSupply _)
    case rackWord => exact (Moves.openPeriod s).trans (.takeRack _ _ _)
    case settlingEnd => exact Moves.takeDue fun t h => Moves.settlingEnd h
    case debounceComplete => exact Moves.takeDue fun t _ => Moves.takeRack t _ _
    case rackLoss => exact Moves.takeDue fun t _ => Moves.takeRack t _ _
    case pilotAttemptTimeout => exact Moves.takeTimeout s _
    case pathRampEnd => exact Moves.takeDue fun t h => Moves.rampEnd h
    case fadeEnd => exact Moves.takeDue fun t _ => Moves.fadeEnd t _
    case dipBottom => exact Moves.takeDue fun t h => Moves.dipBottom h
    case dipAscentEnd => exact Moves.takeDue fun t h => Moves.ascentEnd h
    case timecodeLoss => exact Moves.takeDue fun t _ => Moves.takeRow t _ _
    case timecodeStillExpiry => exact Moves.takeDue fun t _ => Moves.takeRow t _ _
    case meterBlockEnd => exact Moves.takeBlockEnd s _
    case alarmHandover => exact Moves.takeDue fun t _ => Moves.nextHandover t _
    case timerExpiry => exact Moves.takeDue fun t h => Moves.expire h
    case contactEdge => exact Moves.takeDue fun t _ => Moves.takeContactEdge t _
    case tableStoreInitEnd => exact Moves.takeDue fun t _ => Moves.storeEnd t
    case restartEnd => exact Moves.takeDue fun t _ => Moves.restartEnd t
  · have e := (Host.Outcome.next.inj ((exec_of_request s hq).symm.trans h)).symm
    subst e
    exact .inr ⟨_, Moves.openPeriod s, .request q⟩

/-! ### The invariant in parts -/

/-- The assembly is as R188 says: empty in IDLE, no body ahead of the kind word, and short of its declared length in BODY. -/
def Assembly.ok (a : Assembly) : Prop :=
  (a.stage = .idle → a = .idle) ∧ (a.stage = .awaitKind → a.body = []) ∧
  (a.stage = .body → a.body.length < a.declared) ∧ a.declared ≤ 127

/-- The message being sent has words left, and a reply that is being sent is still in the holder (R203). -/
def Mgmt.sendsOk (m : Mgmt) : Prop := ∀ x, m.sending = some x → x.words ≠ [] ∧ (x.isReply = true → m.holder ≠ none)

/-- The Management Unit's invariant, but for a head request that may still be taken (R193). -/
def Mgmt.nearlyOk (m : Mgmt) : Prop :=
  m.queue.length ≤ 4 ∧ m.notices.length ≤ 32 ∧ m.dropCount ≤ 255 ∧ m.sendsOk ∧ m.asm.ok

theorem Mgmt.ok_iff (m : Mgmt) : m.ok ↔ m.nearlyOk ∧ (m.holder = none → m.queue = []) := by
  unfold Mgmt.ok Mgmt.nearlyOk Mgmt.sendsOk Assembly.ok
  tauto

theorem Assembly.ok_idle : Assembly.idle.ok := by
  refine ⟨fun _ => rfl, nofun, nofun, by decide⟩

theorem Mgmt.ok.nearly {m : Mgmt} (h : m.ok) : m.nearlyOk := (m.ok_iff.1 h).1

theorem Mgmt.nearlyOk.asm {m : Mgmt} (h : m.nearlyOk) : m.asm.ok := by
  obtain ⟨-, -, -, -, ha⟩ := h
  exact ha

/-- Another assembly in order (R188). -/
theorem Mgmt.ok.setAsm {m : Mgmt} (h : m.ok) {a : Assembly} (ha : a.ok) (n : BitVec 32) :
    ({ m with asm := a, malformed := n } : Mgmt).ok := by
  rw [Mgmt.ok_iff] at h ⊢
  obtain ⟨⟨h1, h2, h3, h4, -⟩, hw⟩ := h
  exact ⟨⟨h1, h2, h3, h4, ha⟩, hw⟩

/-- Notices alone (R205). -/
theorem Mgmt.nearlyOk.says {m n : Mgmt} (h : m.nearlyOk) (hs : m.Says n) : n.nearlyOk := by
  obtain ⟨hq, hh, hsend, ha, -⟩ := hs.queue
  obtain ⟨h1, h2, h3, h4, h5⟩ := h
  obtain ⟨b1, b2⟩ := hs.bounds h2 h3
  exact ⟨hq ▸ h1, b1, b2, by unfold Mgmt.sendsOk; rw [hsend, hh]; exact h4, ha ▸ h5⟩

theorem Mgmt.ok.says {m n : Mgmt} (h : m.ok) (hs : m.Says n) : n.ok := by
  obtain ⟨hq, hh, -⟩ := hs.queue
  rw [Mgmt.ok_iff] at h ⊢
  exact ⟨h.1.says hs, by rw [hq, hh]; exact h.2⟩

/-! ### Requests (R190 to R193) -/

/-- The reply joins the holder, and everything may wait beside it. -/
theorem Mgmt.nearlyOk.setHolder {m : Mgmt} (h : m.nearlyOk) (y : Reply) : ({ m with holder := some y } : Mgmt).ok := by
  obtain ⟨h1, h2, h3, h4, h5⟩ := h
  rw [Mgmt.ok_iff]
  exact ⟨⟨h1, h2, h3, fun x hx => ⟨(h4 x hx).1, fun _ => nofun⟩, h5⟩, nofun⟩

/-- After the head has had its turn no request waits beside an empty holder (R193). -/
theorem State.mgmtOk_takeHead {s : State} (h : s.mgmt.nearlyOk) : s.takeHead.mgmt.ok := by
  rcases s.takeHead_cases with ⟨q, rest, -, hq, e⟩ | ⟨hw, e⟩
  · rw [e]
    have popped : ({ s.mgmt with queue := rest } : Mgmt).nearlyOk := by
      obtain ⟨h1, h2, h3, h4, h5⟩ := h
      rw [hq, List.length_cons] at h1
      exact ⟨Nat.le_of_succ_le h1, h2, h3, h4, h5⟩
    exact (popped.says (Moves.answer { s with mgmt := { s.mgmt with queue := rest } } q).says).setHolder _
  · rw [e, Mgmt.ok_iff]
    exact ⟨h, fun hn => hw.resolve_left (absurd hn)⟩

/-- A request that completes is within the queue's places, or leaves it as it is (R190, R192). -/
theorem State.mgmtOk_complete {s : State} (h : s.mgmt.ok) (q : Request) : (s.complete q).mgmt.ok := by
  rcases s.complete_cases q with ⟨hl, e⟩ | ⟨-, e⟩ <;> rw [e]
  · obtain ⟨-, h2, h3, h4, h5⟩ := h.nearly
    exact State.mgmtOk_takeHead ⟨by simpa using hl, h2, h3, h4, h5⟩
  · exact Mgmt.ok.says (m := { s.mgmt with overflow := s.mgmt.overflow + 1 }) h (.raise _ _ _)

/-! ### The assembly (R187 to R189) -/

theorem State.mgmtOk_discardAssembly {s : State} (h : s.mgmt.ok) : s.discardAssembly.mgmt.ok := h.setAsm Assembly.ok_idle _

theorem State.mgmtOk_breakAssembly {s : State} (h : s.mgmt.ok) : s.breakAssembly.mgmt.ok := by
  unfold State.breakAssembly
  split
  · exact h
  · exact State.mgmtOk_discardAssembly h

/-- An assembly that has not more than its declared length, and completes where it has all of it (R188). -/
theorem State.mgmtOk_assembled {s : State} (h : s.mgmt.ok) {a : Assembly} (hs : a.stage = .body) (hb : a.body.length ≤ a.declared)
    (hd : a.declared ≤ 127) : (s.assembled a).mgmt.ok := by
  unfold State.assembled
  split
  · exact State.mgmtOk_complete (h.setAsm Assembly.ok_idle s.mgmt.malformed) _
  · refine h.setAsm (a := a) ⟨by simp [hs], by simp [hs], fun _ => by omega, hd⟩ s.mgmt.malformed

theorem State.mgmtOk_takeWord {s : State} (h : s.mgmt.ok) (w : SlotWord) : (s.takeWord w).mgmt.ok := by
  obtain ⟨-, hkind, hbody, hd⟩ := h.nearly.asm
  cases w with
  | empty => exact State.mgmtOk_breakAssembly h
  | corrupt => exact State.mgmtOk_discardAssembly h
  | start p =>
    refine (State.mgmtOk_breakAssembly h).setAsm (a := .ofStart p) ⟨nofun, fun _ => rfl, nofun, ?_⟩ _
    exact Nat.le_of_lt_succ (p.extractLsb' 8 7).isLt
  | data p =>
    unfold State.takeWord
    dsimp only
    split
    · exact State.mgmtOk_discardAssembly h
    · rename_i hs
      exact State.mgmtOk_assembled h rfl (by simp [Assembly.takeKind, hkind hs]) hd
    · rename_i hs
      exact State.mgmtOk_assembled h hs (by simpa using hbody hs) hd

theorem State.mgmtOk_takeSlots {s : State} (h : s.mgmt.ok) (slots : Vector Word 4) : (s.takeSlots slots).mgmt.ok :=
  List.foldlRecOn (motive := fun u : State => u.mgmt.ok) _ _ h fun _ hu _ _ => State.mgmtOk_takeWord hu _

/-! ### The outbound sender (R203) -/

/-- The sender is idle, or has words left. -/
theorem State.mgmtOk_choose {s : State} (h : s.mgmt.ok) : s.choose.mgmt.ok := by
  rw [Mgmt.ok_iff] at h
  obtain ⟨⟨h1, h2, h3, h4, h5⟩, hw⟩ := h
  unfold State.choose
  split
  · rename_i m _ hh
    rw [Mgmt.ok_iff]
    refine ⟨⟨h1, h2, h3, fun x hx => ?_, h5⟩, hw⟩
    cases hx
    exact ⟨by simp [Reply.message], fun _ => by simp [hh]⟩
  · rename_i n rest hh hn
    rw [hn, List.length_cons] at h2
    rw [Mgmt.ok_iff]
    refine ⟨⟨h1, Nat.le_of_succ_le h2, h3, fun x hx => ?_, h5⟩, hw⟩
    cases hx
    exact ⟨by simp [Notice.message], nofun⟩
  · rw [Mgmt.ok_iff]
    exact ⟨⟨h1, h2, h3, h4, h5⟩, hw⟩

theorem State.mgmtOk_finish {s : State} (h : s.mgmt.ok) (isReply : Bool) : (s.finish isReply).mgmt.ok := by
  rw [Mgmt.ok_iff] at h
  obtain ⟨⟨h1, h2, h3, -, h5⟩, hw⟩ := h
  unfold State.finish
  dsimp only
  split
  · exact State.mgmtOk_takeHead ⟨h1, h2, h3, nofun, h5⟩
  · rw [Mgmt.ok_iff]
    exact ⟨⟨h1, h2, h3, nofun, h5⟩, hw⟩

theorem State.mgmtOk_sendNext {s : State} (h : s.mgmt.ok) : s.sendNext.1.mgmt.ok := by
  unfold State.sendNext
  split
  · rename_i isReply w rest hs
    split
    · exact State.mgmtOk_finish h isReply
    · rename_i hr
      rw [Mgmt.ok_iff] at h ⊢
      obtain ⟨⟨h1, h2, h3, h4, h5⟩, hw⟩ := h
      refine ⟨⟨h1, h2, h3, fun x hx => ?_, h5⟩, hw⟩
      cases hx
      exact ⟨hr, fun e => (h4 _ hs).2 e⟩
  · exact h
  · exact h

theorem State.mgmtOk_fillSlot {s : State} (h : s.mgmt.ok) : s.fillSlot.1.mgmt.ok := by
  unfold State.fillSlot
  split
  · exact State.mgmtOk_sendNext (State.mgmtOk_choose h)
  · exact State.mgmtOk_sendNext h

theorem State.mgmtOk_sendFrame {s : State} (h : s.mgmt.ok) : s.sendFrame.mgmt.ok := by
  unfold State.sendFrame
  split
  · exact h
  · exact State.mgmtOk_fillSlot (State.mgmtOk_fillSlot (State.mgmtOk_fillSlot (State.mgmtOk_fillSlot h)))

/-! ### Every command -/

theorem Ending.mgmtOk {u t : State} (he : Ending u t) (h : u.mgmt.ok) : t.mgmt.ok := by
  cases he with
  | moves => exact h
  | close => exact h
  | broken => exact State.mgmtOk_breakAssembly h
  | request q => exact State.mgmtOk_complete (State.mgmtOk_breakAssembly h) q
  | slots slots => exact State.mgmtOk_takeSlots h slots
  | frame => exact State.mgmtOk_sendFrame h

theorem Mgmt.ok_reset : Mgmt.reset.ok := by
  rw [Mgmt.ok_iff]
  exact ⟨⟨Nat.zero_le _, Nat.zero_le _, Nat.zero_le _, nofun, Assembly.ok_idle⟩, fun _ => rfl⟩

theorem exec_mgmtOk {i : Instr} {s t : State} (he : exec i s = .next t) (h : s.mgmt.ok) : t.mgmt.ok := by
  rcases exec_ends i s t he with ⟨line, -, rfl⟩ | ⟨u, hm, hend⟩
  · exact Mgmt.ok_reset
  · exact hend.mgmtOk (h.says hm.says)

/-- Settles O53: the moves of a command raise notices alone, and each ending keeps the queues, the holder, the sender and the
assembly in order. -/
theorem managementKept : Obligations.ManagementKept := by
  intro s t h hs
  unfold step at hs
  split at hs
  · cases hs
    exact h
  · exact exec_mgmtOk hs h

end Sys2Proof.Machine
end

section
/-! The processing budget (06) and the tags of a bank (05): every step keeps both (O54). The format table, the banks and the commitment
of a room change by a load and by SET_TRIMS alone. -/

namespace Sys2Proof.Machine

/-! ### The tables that the budget looks at -/

/-- The records hold the same format table, banks and commitment. -/
structure RoomRec.SameTables (a b : RoomRec) : Prop where
  formats : b.formats = a.formats := by rfl
  bankA : b.bankA = a.bankA := by rfl
  bankB : b.bankB = a.bankB := by rfl
  commitment : b.commitment = a.commitment := by rfl

theorem RoomRec.SameTables.trans {a b c : RoomRec} (h : a.SameTables b) (k : b.SameTables c) : a.SameTables c :=
  ⟨k.formats.trans h.formats, k.bankA.trans h.bankA, k.bankB.trans h.bankB, k.commitment.trans h.commitment⟩

theorem RoomRec.sameTables_applySlots (rm : RoomRec) : rm.SameTables rm.applySlots := by
  unfold RoomRec.applySlots
  rw [RoomRec.applyFormat_slot]
  cases rm.dip.srcSlot <;> cases rm.dip.bankSlot <;> exact {}

theorem RoomRec.sameTables_applyChange (rm : RoomRec) (c : DipChange) : rm.SameTables (rm.applyChange c) := by
  cases c with
  | format i =>
    rw [RoomRec.applyChange, RoomRec.applyFormat_eq]
    exact {}
  | source m => exact {}
  | bank n => exact {}

theorem RoomRec.sameTables_bottom (rm : RoomRec) : rm.SameTables rm.bottom := by
  have h := rm.sameTables_applySlots
  exact ⟨h.formats, h.bankA, h.bankB, h.commitment⟩

theorem RoomRec.sameTables_endDip (rm : RoomRec) : rm.SameTables rm.endDip := by
  have h := rm.sameTables_applySlots
  unfold RoomRec.endDip
  split
  · exact {}
  · exact ⟨h.formats, h.bankA, h.bankB, h.commitment⟩

theorem RoomRec.sameTables_afterTransit {rm : RoomRec} {f : RoomRec → RoomRec} (hf : ∀ x : RoomRec, x.SameTables (f x)) :
    rm.SameTables (rm.afterTransit f) :=
  RoomRec.afterTransit_keeps (P := rm.SameTables) {} (fun _ => rm.sameTables_endDip) (fun x hx => hx.trans (hf x))
    fun x hx => hx.trans {}

theorem RoomRec.sameTables_toSettling (rm : RoomRec) : rm.SameTables rm.toSettling := by
  unfold RoomRec.toSettling
  dsimp only
  split <;> exact {}

theorem RoomRec.sameTables_toProve (rm : RoomRec) : rm.SameTables rm.toProve := by
  unfold RoomRec.toProve
  dsimp only
  split <;> exact {}

theorem RoomRec.sameTables_putCond (rm : RoomRec) (x : CondId) (v : Cond) : rm.SameTables (rm.putCond x v) := by
  cases x <;> exact {}

/-- No table of any room differs, nor the committed total. -/
def State.SameTables (s t : State) : Prop := (∀ r, (s.room r).SameTables (t.room r)) ∧ t.committedTotal = s.committedTotal

/-- A bank with the trims of its channels written (R95). -/
def Bank.withTrims (b : Bank) (trim : Chan → Nat) : Bank :=
  { b with chans := Vector.ofFn fun k => { b.chans[k] with trim := trim k } }

/-- A move changes no table, or is a load or SET_TRIMS. -/
theorem Move.tables {s t : State} (hm : Move s t) : s.SameTables t ∨
    (∃ r rm, t = s.commitLoad r rm ∧ s.overBudget r rm.charge = false ∧
      ((∃ i e, rm = (s.room r).writeEntry i e) ∨
        (∃ n c body first count, rm = (s.room r).setBank n (((s.room r).bank n).load c body first count)) ∨
        (∃ n, rm = (s.room r).setBank n .cleared) ∨
        ∃ n, rm = (s.room r).setBank n ((s.room r).bank (s.room r).bankInService))) ∨
    ∃ r n trim, t = s.modRoom r fun rm => rm.setBank n (((s.room r).bank n).withTrims trim) := by
  have refl (q : Room) : (s.room q).SameTables (s.room q) := {}
  have change {r : Room} {f : RoomRec → RoomRec} (hf : (s.room r).SameTables (f (s.room r))) : s.SameTables (s.modRoom r f) :=
    ⟨State.forall_modRoom (Q := fun q rm => (s.room q).SameTables rm) refl hf, rfl⟩
  have transit {r : Room} {own : List NoticeBody} {f : RoomRec → RoomRec} (hf : ∀ x : RoomRec, x.SameTables (f x)) :
      s.SameTables (s.transit r own f) :=
    ⟨State.forall_transit (Q := fun q rm => (s.room q).SameTables rm) refl (RoomRec.sameTables_afterTransit hf),
      State.onlyRooms_committedTotal (State.onlyRooms_transit s r own f)⟩
  have every {f : RoomRec → RoomRec} (hf : ∀ x : RoomRec, x.SameTables (f x)) : s.SameTables (s.mapRooms f) :=
    ⟨State.forall_mapRooms (Q := fun q rm => (s.room q).SameTables rm) fun q => hf _, rfl⟩
  have still {t u : State} (h : s.SameTables u) (hr : t.rooms = u.rooms) (hc : t.committedTotal = u.committedTotal) :
      s.SameTables t :=
    ⟨State.forall_congr (Q := fun q rm => (s.room q).SameTables rm) h.1 hr, hc.trans h.2⟩
  cases hm
  case load r rm hb hw => exact .inr (.inl ⟨r, rm, rfl, hb, hw⟩)
  case trims r n trim => exact .inr (.inr ⟨r, n, trim, rfl⟩)
  all_goals left
  case quiet part rooms =>
    exact ⟨fun r => ⟨(rooms r).formats, (rooms r).bankA, (rooms r).bankB, (rooms r).commitment⟩, part.committedTotal⟩
  case off r => exact still (transit (r := r) (own := []) (f := RoomRec.toOff) fun _ => {}) rfl rfl
  case halt r _ => exact still (transit (r := r) (own := []) (f := RoomRec.toHalted) fun _ => {}) rfl rfl
  case park | goLive | relive | cancel | proofEnd | loss | found => exact transit fun _ => {}
  case listen r _ _ => exact transit RoomRec.sameTables_toSettling
  case prove r own _ => exact transit RoomRec.sameTables_toProve
  case handOn r c =>
    exact ⟨State.forall_handOn (Q := fun q rm => (s.room q).SameTables rm) refl (fun _ => {})
      (fun _ => RoomRec.sameTables_applyChange _ c), State.onlyRooms_committedTotal (State.onlyRooms_handOn s r c)⟩
  case bottom r _ =>
    exact ⟨State.forall_dipBottom (Q := fun q rm => (s.room q).SameTables rm) refl (RoomRec.sameTables_bottom _),
      State.onlyRooms_committedTotal (State.onlyRooms_dipBottom s r)⟩
  case law body => exact ⟨fun q => by rw [State.room_loadFaderLaw]; exact refl q, State.loadFaderLaw_committedTotal s body⟩
  case raise r x p n _ _ =>
    refine ⟨State.forall_raiseCond (Q := fun q rm => (s.room q).SameTables rm) refl fun u k => ?_,
      State.onlyRooms_committedTotal (State.onlyRooms_raiseCond s r x p n)⟩
    exact (RoomRec.sameTables_putCond _ x u).trans {}
  case ack r x n m =>
    exact ⟨State.forall_ackOne (Q := fun q rm => (s.room q).SameTables rm) refl (RoomRec.sameTables_putCond _ x _),
      State.onlyRooms_committedTotal (State.onlyRooms_ackOne s r x n m)⟩
  case clear r x _ => exact change (f := fun rm => rm.putCond x .quiet) (RoomRec.sameTables_putCond _ x _)
  case judged r x truth _ => exact change (RoomRec.sameTables_putCond _ x _)
  case values ws which => exact ⟨State.forall_takeValues (Q := fun q rm => (s.room q).SameTables rm) refl fun _ => {}, rfl⟩
  case chains which => exact ⟨State.forall_stepDecode (Q := fun q rm => (s.room q).SameTables rm) refl fun _ => {}, rfl⟩
  case tick => exact still (every (f := RoomRec.tick s.supply) fun _ => {}) rfl rfl
  case asserted =>
    exact still (every (f := fun rm => { rm.cursorToBase with timers := Vector.ofFn fun i => rm.timers[i].freeze }) fun _ => {}) rfl rfl
  case placed => exact every fun _ => {}
  case newBlock => exact still (every (f := RoomRec.newBlock) fun _ => {}) rfl rfl
  case restart => exact still (every (f := RoomRec.restart s.law) fun _ => {}) rfl rfl
  case lanes ws later =>
    delta State.takeLanes
    exact still ⟨refl, rfl⟩ rfl rfl
  case released | storeReady | restartDone | input | ended => exact still ⟨refl, rfl⟩ rfl rfl
  case absence | record | settled | ramp | onAir | setRoom | gain | ascent | alarmEntry | draftClear | draftAppend | commit | rewind |
    timecode | advance | jump => exact change {}

/-! ### Tags (R89, R90, R108) -/

theorem Coefs.slotOk (c : Coefs) : (⟨c, c.tag⟩ : SlotRec).ok := by
  refine ⟨.inr rfl, fun h => ?_⟩
  have hs : c.stable = true := by
    by_contra hn
    simp only [Coefs.tag, if_neg hn] at h
    split at h <;> cases h
  simpa [Coefs.stable, Int.natCast_natAbs] using hs

/-- Every slot of a bank is in order. -/
def Bank.tagsOk (b : Bank) : Prop := ∀ (k : Chan) (i : Fin 8), b.chans[k].slots[i].ok

theorem State.tagsOk_iff (s : State) : s.tagsOk ↔ ∀ r : Room, (s.room r).bankA.tagsOk ∧ (s.room r).bankB.tagsOk := by
  constructor
  · exact fun h r => ⟨h r .a, h r .b⟩
  · intro h r n
    cases n
    · exact (h r).1
    · exact (h r).2

theorem Bank.tagsOk_cleared : Bank.cleared.tagsOk := by
  intro k i
  have e : Bank.cleared.chans[k].slots[i] = ⟨⟨0, 0, 0, 0, 0⟩, .empty⟩ := by
    simp [Bank.cleared, ChanEq.cleared]
  rw [e]
  exact ⟨.inl rfl, nofun⟩

/-- A load tags the slots that it writes and leaves the others (R93). -/
theorem Bank.tagsOk_load {b : Bank} (h : b.tagsOk) (c : Chan) (body : List Payload) (first count : Nat) :
    (b.load c body first count).tagsOk := by
  intro k i
  simp only [Bank.load, Bank.ofChans, Fin.getElem_fin, Vector.getElem_set]
  split
  · simp only [ChanEq.load, Vector.getElem_ofFn]
    split
    · exact Coefs.slotOk _
    · exact h c i
  · exact h k i

theorem Bank.tagsOk_trims {b : Bank} (h : b.tagsOk) (trim : Chan → Nat) : (b.withTrims trim).tagsOk := by
  intro k i
  simp only [Bank.withTrims, Fin.getElem_fin, Vector.getElem_ofFn]
  exact h k i

/-- SET_TRIMS leaves the tags, and so the counts (R95). -/
theorem Bank.ok_trims {b : Bank} (h : b.ok) (trim : Chan → Nat) : (b.withTrims trim).ok := by
  have e (t : Tag) : countTags t (Vector.ofFn fun k => { b.chans[k] with trim := trim k }) = countTags t b.chans := by
    simp [countTags]
  exact ⟨h.1.trans (e _).symm, h.2.trans (e _).symm⟩

theorem Bank.withTrims_active (b : Bank) (trim : Chan → Nat) : (b.withTrims trim).active = b.active := rfl

theorem Bank.ok_cleared : Bank.cleared.ok := by
  constructor <;> simp [Bank.cleared, ChanEq.cleared, countTags] 

/-! ### What a load makes of the banks -/

/-- Another bank of a name: what holds of both banks before and of the new one holds of both after. -/
theorem RoomRec.forall_setBank {P : Bank → Prop} {rm : RoomRec} (h : P rm.bankA ∧ P rm.bankB) (n : BankName) {b : Bank} (hb : P b) :
    P (rm.setBank n b).bankA ∧ P (rm.setBank n b).bankB := by
  cases n
  · exact ⟨hb, h.2⟩
  · exact ⟨h.1, hb⟩

theorem RoomRec.bank_of_both {P : Bank → Prop} {rm : RoomRec} (h : P rm.bankA ∧ P rm.bankB) (n : BankName) : P (rm.bank n) := by
  cases n
  · exact h.1
  · exact h.2

/-- After a load both banks are as a bank is, if every bank is so that a load writes. -/
theorem RoomRec.forall_loaded {P : Bank → Prop} {rm0 rm : RoomRec} (hc : P .cleared)
    (hl : ∀ b c body first count, P b → P (Bank.load b c body first count)) (h : P rm0.bankA ∧ P rm0.bankB)
    (hw : (∃ i e, rm = rm0.writeEntry i e) ∨
      (∃ n c body first count, rm = rm0.setBank n ((rm0.bank n).load c body first count)) ∨
      (∃ n, rm = rm0.setBank n .cleared) ∨ ∃ n, rm = rm0.setBank n (rm0.bank rm0.bankInService)) :
    P rm.bankA ∧ P rm.bankB := by
  rcases hw with ⟨i, e, rfl⟩ | ⟨n, c, body, first, count, rfl⟩ | ⟨n, rfl⟩ | ⟨n, rfl⟩
  · exact h
  · exact RoomRec.forall_setBank h n (hl _ _ _ _ _ (RoomRec.bank_of_both h n))
  · exact RoomRec.forall_setBank h n hc
  · exact RoomRec.forall_setBank h n (RoomRec.bank_of_both h _)

/-! ### The invariants -/

theorem Move.tagsOk {s t : State} (hm : Move s t) (h : s.tagsOk) : t.tagsOk := by
  rw [State.tagsOk_iff] at h ⊢
  rcases hm.tables with ⟨rooms, -⟩ | ⟨r, rm, rfl, -, hw⟩ | ⟨r, n, trim, rfl⟩
  · intro r
    rw [(rooms r).bankA, (rooms r).bankB]
    exact h r
  · have banks := RoomRec.forall_loaded (P := Bank.tagsOk) Bank.tagsOk_cleared (fun _ _ _ _ _ hb => Bank.tagsOk_load hb _ _ _ _)
      (h r) hw
    exact State.forall_commitLoad (Q := fun _ rm => rm.bankA.tagsOk ∧ rm.bankB.tagsOk) h banks
  · exact State.forall_modRoom (Q := fun _ rm => rm.bankA.tagsOk ∧ rm.bankB.tagsOk) h
      (RoomRec.forall_setBank (h r) n (Bank.tagsOk_trims (RoomRec.bank_of_both (h r) n) trim))

/-- A room's banks count their tags, and its commitment is what its tables require (R90, R109). -/
def RoomRec.budgetOk (rm : RoomRec) : Prop := (rm.bankA.ok ∧ rm.bankB.ok) ∧ rm.commitment = rm.charge

theorem RoomRec.charge_congr {a b : RoomRec} (hf : b.formats = a.formats) (hA : b.bankA.active = a.bankA.active)
    (hB : b.bankB.active = a.bankB.active) : b.charge = a.charge := by
  simp only [RoomRec.charge, RoomRec.decodeTerm, RoomRec.sectionTerm, hf, hA, hB]

theorem RoomRec.setBank_commitment (rm : RoomRec) (n : BankName) (b : Bank) : (rm.setBank n b).commitment = rm.commitment := by
  cases n <;> rfl

/-- A bank with the same count of ACTIVE slots leaves the charge (R109). -/
theorem RoomRec.charge_setBank {rm : RoomRec} {n : BankName} {b : Bank} (h : b.active = (rm.bank n).active) :
    (rm.setBank n b).charge = rm.charge := by
  cases n
  · exact RoomRec.charge_congr rfl h rfl
  · exact RoomRec.charge_congr rfl rfl h

/-- The sum of the commitments (R110). -/
def State.commitments (s : State) : Nat := ((List.finRange 12).map fun r => (s.room r).commitment).sum

theorem State.budgetOk_iff (s : State) :
    s.budgetOk ↔ (∀ r : Room, (s.room r).budgetOk) ∧ s.committedTotal = s.commitments ∧ s.committedTotal ≤ 1280 := by
  simp only [State.budgetOk, RoomRec.budgetOk, State.commitments, and_assoc]

theorem State.commitments_congr {s t : State} (h : ∀ r, (t.room r).commitment = (s.room r).commitment) :
    t.commitments = s.commitments := by
  simp only [State.commitments, h]

/-- With one room's record replaced the sum loses its old commitment and gains the new (R110). -/
theorem State.commitments_modRoom (s : State) (r : Room) (f : RoomRec → RoomRec) :
    (s.modRoom r f).commitments + (s.room r).commitment = s.commitments + (f (s.room r)).commitment :=
  s.sum_modRoom RoomRec.commitment r f

theorem State.commitment_le (s : State) (r : Room) : (s.room r).commitment ≤ s.commitments := s.le_sum RoomRec.commitment r

theorem Move.budgetOk {s t : State} (hm : Move s t) (h : s.budgetOk) : t.budgetOk := by
  rw [State.budgetOk_iff] at h ⊢
  obtain ⟨hroom, htotal, hle⟩ := h
  rcases hm.tables with ⟨rooms, same⟩ | ⟨r, rm, rfl, hb, hw⟩ | ⟨r, n, trim, rfl⟩
  · refine ⟨fun r => ?_, ?_, same ▸ hle⟩
    · have k := rooms r
      unfold RoomRec.budgetOk
      rw [k.bankA, k.bankB, k.commitment, RoomRec.charge_congr k.formats (by rw [k.bankA]) (by rw [k.bankB])]
      exact hroom r
    · rw [same, htotal, State.commitments_congr fun r => (rooms r).commitment]
  · have banks := RoomRec.forall_loaded (P := Bank.ok) Bank.ok_cleared (fun _ _ _ _ _ _ => ⟨rfl, rfl⟩) (hroom r).1 hw
    have sum := s.commitments_modRoom r fun _ => { rm with commitment := rm.charge }
    have old := s.commitment_le r
    refine ⟨State.forall_commitLoad (Q := fun _ rm => rm.budgetOk) hroom ⟨banks, rfl⟩, ?_, ?_⟩
    · show s.committedTotal + rm.charge - (s.room r).commitment = (s.modRoom r fun _ => { rm with commitment := rm.charge }).commitments
      dsimp only at sum
      omega
    · show s.prospective r rm.charge ≤ 1280
      have within := of_decide_eq_false hb
      simp only [Config.budget, not_and_or] at within
      omega
  · refine ⟨State.forall_modRoom (Q := fun _ rm => rm.budgetOk) hroom ?_, ?_, hle⟩
    · obtain ⟨banks, hc⟩ := hroom r
      refine ⟨RoomRec.forall_setBank banks n (Bank.ok_trims (RoomRec.bank_of_both banks n) trim), ?_⟩
      rw [RoomRec.setBank_commitment, RoomRec.charge_setBank (Bank.withTrims_active _ trim)]
      exact hc
    · rw [State.modRoom_committedTotal, htotal]
      have sum := s.commitments_modRoom r fun rm => rm.setBank n (((s.room r).bank n).withTrims trim)
      rw [RoomRec.setBank_commitment] at sum
      exact (Nat.add_right_cancel sum).symm

/-! ### Every step -/

theorem Turn.budgetOk {s t : State} (ht : Turn s t) (h : s.budgetOk) : t.budgetOk := by
  cases ht with
  | move hm => exact hm.budgetOk h
  | desk m out => exact h
  | close _ => exact h

theorem Turn.tagsOk {s t : State} (ht : Turn s t) (h : s.tagsOk) : t.tagsOk := by
  cases ht with
  | move hm => exact hm.tagsOk h
  | desk m out => exact h
  | close _ => exact h

theorem State.tagsOk_fullReset (s : State) (line : Bool) : (s.fullReset line).tagsOk := by
  rw [State.tagsOk_iff]
  intro r
  rw [State.room_fullReset]
  exact ⟨Bank.tagsOk_cleared, Bank.tagsOk_cleared⟩

theorem State.budgetOk_fullReset (s : State) (line : Bool) : (s.fullReset line).budgetOk := by
  have hc : RoomRec.reset.commitment = RoomRec.reset.charge := by
    simp [RoomRec.reset, RoomRec.charge, RoomRec.decodeTerm, RoomRec.sectionTerm, Bank.cleared, FormatEntry.reset]
  refine (State.budgetOk_iff _).2 ⟨fun r => ?_, ?_, Nat.zero_le _⟩
  · rw [State.room_fullReset]
    exact ⟨⟨Bank.ok_cleared, Bank.ok_cleared⟩, hc⟩
  · simp only [State.commitments, State.room_fullReset]
    rfl

/-- Settles O54: only a load and SET_TRIMS change what the two invariants look at. -/
theorem budgetKept : Obligations.BudgetKept := fun _ _ hs =>
  ⟨step_keeps (fun _ _ => id) State.budgetOk_fullReset (fun _ _ => Turn.budgetOk) hs,
    step_keeps (fun _ _ => id) State.tagsOk_fullReset (fun _ _ => Turn.tagsOk) hs⟩

end Sys2Proof.Machine
end

section
/-! Meters and alarms (07): every step keeps the alarm list in agreement with the conditions, and free of rooms in OFF (O55). The list
and the conditions change together by a raising, a clearing, an acknowledgement, a room's entry into OFF or HALTED and the restart;
every other move at most lets a condition go that is not raised. -/

namespace Sys2Proof.Machine

/-! ### The list and the conditions -/

/-- The alarm list agrees with the conditions (R130 to R133). -/
def AlarmsAgree (l : List AlarmEntry) (c : Room → CondId → Cond) : Prop :=
  l.length ≤ 48 ∧ (l.map fun e => (e.room, e.cond)).Nodup ∧ (∀ e ∈ l, e.agrees (c e.room e.cond)) ∧
  ∀ (r : Room) (x : CondId),
    ((c r x).unlisted = true → (c r x).phase = .raised) ∧
    ((c r x).phase = .raised → (c r x).unlisted = false → ∃ e ∈ l, e.room = r ∧ e.cond = x)

theorem State.alarmsOk_iff (s : State) : s.alarmsOk ↔ AlarmsAgree s.alarms fun r x => (s.room r).cond x := Iff.rfl

/-- An entry of a RAISED condition is ACTIVE, and its condition listed. -/
theorem AlarmEntry.agrees_raised {e : AlarmEntry} {c : Cond} (h : e.agrees c) (hp : c.phase = .raised) :
    e.active = true ∧ c.unlisted = false := by
  unfold AlarmEntry.agrees at h
  split at h
  · exact ⟨‹_›, h.2⟩
  · simp [hp] at h

/-- An entry of a condition that is not RAISED is CLEARED. -/
theorem AlarmEntry.agrees_calm {e : AlarmEntry} {c d : Cond} (h : e.agrees c) (hp : c.phase ≠ .raised)
    (hd : d.phase = .quiet ∨ d.phase = .pending) : e.agrees d := by
  unfold AlarmEntry.agrees at h ⊢
  split at h
  · exact absurd h.1 hp
  · rw [if_neg ‹_›]
    exact hd

theorem AlarmEntry.not_is_iff (e : AlarmEntry) (r : Room) (x : CondId) : (!e.is r x) = true ↔ ¬(e.room = r ∧ e.cond = x) := by
  rw [Bool.not_eq_true', AlarmEntry.is, decide_eq_false_iff_not]

theorem AlarmEntry.is_iff (e : AlarmEntry) (r : Room) (x : CondId) : e.is r x = true ↔ e.room = r ∧ e.cond = x := by
  simp [AlarmEntry.is]

theorem AlarmEntry.clearChannel_keeps (r : Room) (e : AlarmEntry) :
    (e.clearChannel r).room = e.room ∧ (e.clearChannel r).cond = e.cond := by
  unfold AlarmEntry.clearChannel
  split <;> exact ⟨rfl, rfl⟩

/-- The condition is the same, or it was not RAISED and is let go or starts to count (R102, R122, R125). -/
def Cond.Calms (a b : Cond) : Prop :=
  b = a ∨ a.phase ≠ .raised ∧ (b.phase = .quiet ∨ b.phase = .pending) ∧ (b.unlisted = true → a.unlisted = true)

theorem Cond.Calms.trans {a b c : Cond} (h : a.Calms b) (k : b.Calms c) : a.Calms c := by
  rcases h with rfl | ⟨h1, h2, h3⟩
  · exact k
  · rcases k with rfl | ⟨-, k2, k3⟩
    · exact .inr ⟨h1, h2, h3⟩
    · exact .inr ⟨h1, k2, h3 ∘ k3⟩

theorem Cond.calms_requiet (c : Cond) : c.Calms c.requiet := by
  rw [Cond.requiet_eq]
  split
  · exact .inl rfl
  · exact .inr ⟨by tauto, .inl rfl, nofun⟩

/-- A judgement that clears nothing (R125). -/
theorem Cond.calms_move {c : Cond} {truth : Bool} (h : c.phase = .raised → truth = true) : c.Calms (c.move truth) := by
  obtain ⟨phase, run, unlisted⟩ := c
  cases phase <;> cases truth
  case raised.false => cases h rfl
  case raised.true | heldAck.true => exact .inl rfl
  case quiet.true => exact .inr ⟨nofun, .inr rfl, nofun⟩
  case pending.true => exact .inr ⟨nofun, .inr rfl, id⟩
  all_goals exact .inr ⟨nofun, .inl rfl, nofun⟩

section
variable {l : List AlarmEntry} {c d : Room → CondId → Cond} (h : AlarmsAgree l c)
include h

theorem AlarmsAgree.calm (hd : ∀ r x, (c r x).Calms (d r x)) : AlarmsAgree l d := by
  obtain ⟨hlen, hnd, hag, hrest⟩ := h
  refine ⟨hlen, hnd, fun e he => ?_, fun r x => ?_⟩
  · rcases hd e.room e.cond with e' | ⟨h1, h2, -⟩
    · rw [e']
      exact hag e he
    · exact AlarmEntry.agrees_calm (hag e he) h1 h2
  · obtain ⟨hu, hl⟩ := hrest r x
    rcases hd r x with e' | ⟨h1, h2, h3⟩
    · rw [e']
      exact ⟨hu, hl⟩
    · refine ⟨fun k => absurd (hu (h3 k)) h1, fun k => ?_⟩
      rcases h2 with h2 | h2 <;> rw [h2] at k <;> cases k

/-- The entries of some rooms leave the list, and their conditions return to QUIET (R138). -/
theorem AlarmsAgree.leave {r : Room} (hr : ∀ x, d r x = .quiet) (ho : ∀ q x, q ≠ r → d q x = c q x) :
    AlarmsAgree (l.filter fun e => e.room ≠ r) d := by
  obtain ⟨hlen, hnd, hag, hrest⟩ := h
  refine ⟨(List.length_filter_le _ _).trans hlen, hnd.sublist (List.filter_sublist.map _), fun e he => ?_, fun q x => ?_⟩
  · obtain ⟨hin, hne⟩ := List.mem_filter.1 he
    rw [ho _ _ (by simpa using hne)]
    exact hag e hin
  · by_cases e : q = r
    · subst e
      rw [hr]
      exact ⟨nofun, nofun⟩
    · rw [ho _ _ e]
      refine ⟨(hrest q x).1, fun h1 h2 => ?_⟩
      obtain ⟨y, hy, rfl, hx⟩ := (hrest q x).2 h1 h2
      exact ⟨y, List.mem_filter.2 ⟨hy, by simpa using e⟩, rfl, hx⟩

/-- The channel entries of a room are CLEARED, and its channel conditions return to QUIET (R137). -/
theorem AlarmsAgree.haltRoom {r : Room} (hr : ∀ x, x ≠ .rack → d r x = .quiet) (hrack : d r .rack = c r .rack)
    (ho : ∀ q x, q ≠ r → d q x = c q x) : AlarmsAgree (l.map (AlarmEntry.clearChannel r)) d := by
  have key := AlarmEntry.clearChannel_keeps r
  have same (q : Room) (x : CondId) (hn : ¬(q = r ∧ x ≠ .rack)) : d q x = c q x := by
    by_cases e : q = r
    · subst e
      rw [show x = .rack by simpa using hn, hrack]
    · exact ho q x e
  obtain ⟨hlen, hnd, hag, hrest⟩ := h
  refine ⟨by simpa only [List.length_map] using hlen, by simpa only [List.map_map, Function.comp_def, key] using hnd,
    fun e he => ?_, fun q x => ?_⟩
  · obtain ⟨e, hin, rfl⟩ := List.mem_map.1 he
    rw [(key e).1, (key e).2]
    by_cases hc : e.room = r ∧ e.cond ≠ .rack
    · rw [AlarmEntry.clearChannel, if_pos hc, hc.1, hr _ hc.2]
      exact .inl rfl
    · rw [AlarmEntry.clearChannel, if_neg hc, same _ _ hc]
      exact hag e hin
  · by_cases hc : q = r ∧ x ≠ .rack
    · rw [hc.1, hr _ hc.2]
      exact ⟨nofun, nofun⟩
    · rw [same _ _ hc]
      refine ⟨(hrest q x).1, fun h1 h2 => ?_⟩
      obtain ⟨y, hy, rfl, rfl⟩ := (hrest q x).2 h1 h2
      exact ⟨_, List.mem_map_of_mem hy, (key y).1, (key y).2⟩

/-- The list gives up a CLEARED entry (R131). -/
theorem AlarmsAgree.erase {i : Nat} {e : AlarmEntry} (hi : l[i]? = some e) (he : e.active = false) : AlarmsAgree (l.eraseIdx i) c := by
  obtain ⟨hlen, hnd, hag, hrest⟩ := h
  refine ⟨(List.length_eraseIdx_le l i).trans hlen, hnd.sublist ((List.eraseIdx_sublist l i).map _),
    fun y hy => hag y (List.mem_of_mem_eraseIdx hy), fun q x => ⟨(hrest q x).1, fun h1 h2 => ?_⟩⟩
  obtain ⟨y, hy, hyr, hyx⟩ := (hrest q x).2 h1 h2
  refine ⟨y, List.mem_eraseIdx_iff_getElem?.2 ?_, hyr, hyx⟩
  obtain ⟨j, hj⟩ := List.getElem?_of_mem hy
  refine ⟨j, fun e' => ?_, hj⟩
  subst e'
  have active := (AlarmEntry.agrees_raised (hag y hy) (by rw [hyr, hyx]; exact h1)).1
  rw [hi] at hj
  cases hj
  rw [he] at active
  cases active

variable {r : Room} {x : CondId} (ho : ∀ q y, ¬(q = r ∧ y = x) → d q y = c q y)
include ho

/-- A clearing: an entry of the condition is CLEARED in its place (R133). -/
theorem AlarmsAgree.clear (hp : (c r x).phase = .raised) (hd : d r x = .quiet) :
    AlarmsAgree (l.map fun e => if !(c r x).unlisted && e.is r x then { e with active := false } else e) d := by
  have key (e : AlarmEntry) (b : Bool) : (if b then { e with active := false } else e).room = e.room ∧
      (if b then { e with active := false } else e).cond = e.cond := by cases b <;> exact ⟨rfl, rfl⟩
  obtain ⟨hlen, hnd, hag, hrest⟩ := h
  refine ⟨by simpa only [List.length_map] using hlen, by simpa only [List.map_map, Function.comp_def, key] using hnd,
    fun e he => ?_, fun q y => ?_⟩
  · obtain ⟨e, hin, rfl⟩ := List.mem_map.1 he
    rw [(key e _).1, (key e _).2]
    by_cases hc : e.room = r ∧ e.cond = x
    · obtain ⟨rfl, rfl⟩ := hc
      obtain ⟨-, hu⟩ := AlarmEntry.agrees_raised (hag e hin) hp
      rw [hd, hu, (e.is_iff _ _).2 ⟨rfl, rfl⟩]
      exact .inl rfl
    · rw [ho _ _ hc, if_neg (by simp [AlarmEntry.is_iff, hc])]
      exact hag e hin
  · by_cases hc : q = r ∧ y = x
    · rw [hc.1, hc.2, hd]
      exact ⟨nofun, nofun⟩
    · rw [ho _ _ hc]
      refine ⟨(hrest q y).1, fun h1 h2 => ?_⟩
      obtain ⟨z, hz, rfl, rfl⟩ := (hrest q y).2 h1 h2
      exact ⟨_, List.mem_map_of_mem hz, (key z _).1, (key z _).2⟩

/-- An acknowledgement: the condition's entry leaves the list, and the condition is not RAISED (R136). -/
theorem AlarmsAgree.ack (hd : d r x = c r x ∧ (c r x).phase ≠ .raised ∨ d r x = ⟨.heldAck, 0, false⟩) :
    AlarmsAgree (l.filter fun e => !e.is r x) d := by
  obtain ⟨hlen, hnd, hag, hrest⟩ := h
  refine ⟨(List.length_filter_le _ _).trans hlen, hnd.sublist (List.filter_sublist.map _), fun e he => ?_, fun q y => ?_⟩
  · obtain ⟨hin, hne⟩ := List.mem_filter.1 he
    rw [ho _ _ ((AlarmEntry.not_is_iff e r x).1 hne)]
    exact hag e hin
  · by_cases hc : q = r ∧ y = x
    · obtain ⟨rfl, rfl⟩ := hc
      rcases hd with ⟨e, hp⟩ | e <;> rw [e]
      · exact ⟨(hrest q y).1, fun k => absurd k hp⟩
      · exact ⟨nofun, nofun⟩
    · rw [ho _ _ hc]
      refine ⟨(hrest q y).1, fun h1 h2 => ?_⟩
      obtain ⟨z, hz, rfl, rfl⟩ := (hrest q y).2 h1 h2
      exact ⟨z, List.mem_filter.2 ⟨hz, (AlarmEntry.not_is_iff z r x).2 hc⟩, rfl, rfl⟩

/-- A raising of a condition that no entry is of (R131, R132): unlisted in a list that is left alone. -/
theorem AlarmsAgree.unlist (hn : ∀ e ∈ l, ¬(e.room = r ∧ e.cond = x)) (hd : d r x = ⟨.raised, 0, true⟩) : AlarmsAgree l d := by
  obtain ⟨hlen, hnd, hag, hrest⟩ := h
  refine ⟨hlen, hnd, fun e he => ?_, fun q y => ?_⟩
  · rw [ho _ _ (hn e he)]
    exact hag e he
  · by_cases hc : q = r ∧ y = x
    · rw [hc.1, hc.2, hd]
      exact ⟨fun _ => rfl, nofun⟩
    · rw [ho _ _ hc]
      exact hrest q y

/-- A raising of a condition that no entry is of: a new entry joins the tail (R131). -/
theorem AlarmsAgree.append (hn : ∀ e ∈ l, ¬(e.room = r ∧ e.cond = x)) (hl : l.length < 48) (blk : BitVec 32) (p : Nat)
    (hd : d r x = ⟨.raised, 0, false⟩) : AlarmsAgree (l ++ [.first r x blk p]) d := by
  obtain ⟨-, hnd, hag, hrest⟩ := h
  refine ⟨by simpa using hl, ?_, fun e he => ?_, fun q y => ?_⟩
  · rw [List.map_append]
    refine hnd.append (List.nodup_singleton _) fun k hk hk' => ?_
    obtain ⟨e, he, rfl⟩ := List.mem_map.1 hk
    obtain ⟨hr, hx⟩ := Prod.mk.inj (List.mem_singleton.1 hk')
    exact hn e he ⟨hr, hx⟩
  · rcases List.mem_append.1 he with he | he
    · rw [ho _ _ (hn e he)]
      exact hag e he
    · rw [List.mem_singleton.1 he]
      show AlarmEntry.agrees _ (d r x)
      rw [hd]
      exact ⟨rfl, rfl⟩
  · by_cases hc : q = r ∧ y = x
    · rw [hc.1, hc.2, hd]
      exact ⟨nofun, fun _ _ => ⟨_, List.mem_append_right _ (List.mem_singleton_self _), rfl, rfl⟩⟩
    · rw [ho _ _ hc]
      refine ⟨(hrest q y).1, fun h1 h2 => ?_⟩
      obtain ⟨z, hz, hzr⟩ := (hrest q y).2 h1 h2
      exact ⟨z, List.mem_append_left _ hz, hzr⟩

/-- A raising of a condition with a CLEARED entry: the entry is raised again in its place (R131). -/
theorem AlarmsAgree.again (hex : ∃ e ∈ l, e.room = r ∧ e.cond = x) (blk : BitVec 32) (p : Nat) (hd : d r x = ⟨.raised, 0, false⟩) :
    AlarmsAgree (l.map fun e => if e.is r x then e.again blk p else e) d := by
  have key (e : AlarmEntry) (b : Bool) : (if b then e.again blk p else e).room = e.room ∧
      (if b then e.again blk p else e).cond = e.cond := by cases b <;> exact ⟨rfl, rfl⟩
  obtain ⟨hlen, hnd, hag, hrest⟩ := h
  refine ⟨by simpa only [List.length_map] using hlen, by simpa only [List.map_map, Function.comp_def, key] using hnd,
    fun e he => ?_, fun q y => ?_⟩
  · obtain ⟨e, hin, rfl⟩ := List.mem_map.1 he
    rw [(key e _).1, (key e _).2]
    by_cases hc : e.room = r ∧ e.cond = x
    · rw [hc.1, hc.2, hd, if_pos ((e.is_iff r x).2 hc)]
      exact ⟨rfl, rfl⟩
    · rw [ho _ _ hc, if_neg (by rwa [AlarmEntry.is_iff])]
      exact hag e hin
  · by_cases hc : q = r ∧ y = x
    · obtain ⟨z, hz, hzr, hzx⟩ := hex
      rw [hc.1, hc.2, hd]
      exact ⟨nofun, fun _ _ => ⟨_, List.mem_map_of_mem hz, (key z _).1.trans hzr, (key z _).2.trans hzx⟩⟩
    · rw [ho _ _ hc]
      refine ⟨(hrest q y).1, fun h1 h2 => ?_⟩
      obtain ⟨z, hz, hzr, hzx⟩ := (hrest q y).2 h1 h2
      exact ⟨_, List.mem_map_of_mem hz, (key z _).1.trans hzr, (key z _).2.trans hzx⟩

/-- The list after a raising agrees with the raised condition (R131, R132). -/
theorem AlarmsAgree.raise (blk : BitVec 32) (p : Nat) (hd : d r x = ⟨.raised, 0, (raiseList l r x blk p).2.isNone⟩) :
    AlarmsAgree (raiseList l r x blk p).1 d := by
  generalize hout : raiseList l r x blk p = out at hd ⊢
  unfold raiseList at hout
  split at hout
  · rename_i e he
    subst hout
    exact h.again ho ⟨e, List.mem_of_find?_eq_some he, (e.is_iff r x).1 (List.find?_some (p := fun e : AlarmEntry => e.is r x) he)⟩ blk p hd
  · rename_i he
    have hn (e : AlarmEntry) (hin : e ∈ l) : ¬(e.room = r ∧ e.cond = x) := by
      rw [← AlarmEntry.is_iff]
      exact List.find?_eq_none.1 he e hin
    split at hout
    · subst hout
      exact h.append ho hn ‹_› blk p hd
    · split at hout
      · rename_i i hi
        subst hout
        obtain ⟨hlt, hcleared, -⟩ := List.findIdx?_eq_some_iff_getElem.1 hi
        have shorter : (l.eraseIdx i).length < 48 := by
          have hlen := h.1
          rw [List.length_eraseIdx_of_lt hlt]
          omega
        exact (h.erase (List.getElem?_eq_getElem hlt) (by simpa using hcleared)).append ho
          (fun e hin => hn e (List.mem_of_mem_eraseIdx hin)) shorter blk p hd
      · subst hout
        exact h.unlist ho hn hd

end

theorem State.setLaw_alarms (s : State) (law : Vector Nat 101) : ({ s with law := law } : State).alarms = s.alarms := rfl

/-! ### The rooms' conditions -/

/-- The room's conditions are the same but for those that calm, and it does not enter OFF. -/
structure RoomRec.Calms (a b : RoomRec) : Prop where
  conds : ∀ x, (a.cond x).Calms (b.cond x)
  off : b.path.state = .off → a.path.state = .off

theorem RoomRec.Calms.refl (a : RoomRec) : a.Calms a := ⟨fun _ => .inl rfl, id⟩

theorem RoomRec.Calms.trans {a b c : RoomRec} (h : a.Calms b) (k : b.Calms c) : a.Calms c :=
  ⟨fun x => (h.conds x).trans (k.conds x), h.off ∘ k.off⟩

theorem RoomRec.cond_congr {a b : RoomRec} (hc : b.conds = a.conds) (hr : b.rackCond = a.rackCond) (x : CondId) : b.cond x = a.cond x := by
  cases x with
  | level c k => exact congrArg (fun v : Vector ChanConds 16 => v[c].get k) hc
  | rack => exact hr

/-- Another record with the same conditions, in a state that is OFF only if the old one is. -/
theorem RoomRec.calms_of_eq {a b : RoomRec} (hc : b.conds = a.conds) (hr : b.rackCond = a.rackCond)
    (hs : b.path.state = .off → a.path.state = .off) : a.Calms b :=
  ⟨fun x => .inl (RoomRec.cond_congr hc hr x), hs⟩

theorem ChanConds.get_put (c : ChanConds) (k j : LevelKind) (v : Cond) : (c.put k v).get j = if j = k then v else c.get j := by
  cases k <;> cases j <;> rfl

theorem RoomRec.cond_putCond (rm : RoomRec) (x y : CondId) (v : Cond) : (rm.putCond x v).cond y = if y = x then v else rm.cond y := by
  cases x with
  | rack => cases y <;> simp [RoomRec.putCond, RoomRec.cond]
  | level c k =>
    cases y with
    | rack => simp [RoomRec.putCond, RoomRec.cond]
    | level d j =>
      simp only [RoomRec.putCond, RoomRec.cond, Fin.getElem_fin, Vector.getElem_set, CondId.level.injEq]
      by_cases e : d = c
      · subst e
        simp [ChanConds.get_put]
      · rw [if_neg (fun e' => e (Fin.ext e').symm), if_neg (fun e' => e e'.1)]

/-- The swap lets OVER and CLIP conditions go that are not raised (R102). -/
theorem RoomRec.calms_requietSwap (rm : RoomRec) : rm.Calms rm.requietSwap := by
  refine ⟨fun x => ?_, id⟩
  cases x with
  | rack => exact .inl rfl
  | level c k =>
    simp only [RoomRec.cond, RoomRec.requietSwap, Fin.getElem_fin, Vector.getElem_ofFn]
    match k with
    | .silence | .loss => exact .inl rfl
    | .over | .clip => exact Cond.calms_requiet _

theorem RoomRec.calms_writeAlarms (rm : RoomRec) (set : BitVec 16) (a : AlarmCfg) : rm.Calms (rm.writeAlarms set a) := by
  refine ⟨fun x => ?_, id⟩
  cases x with
  | rack => exact .inl rfl
  | level c k =>
    simp only [RoomRec.cond, RoomRec.writeAlarms, Fin.getElem_fin, Vector.getElem_ofFn]
    split
    · cases k <;> exact Cond.calms_requiet _
    · exact .inl rfl

theorem RoomRec.calms_applyFormat (rm : RoomRec) (i : Fin 4) : rm.Calms (rm.applyFormat i) := by
  unfold RoomRec.applyFormat
  split <;> exact RoomRec.calms_of_eq rfl rfl id

theorem RoomRec.calms_applyBank (rm : RoomRec) (n : BankName) : rm.Calms (rm.applyBank n) :=
  have swapped := RoomRec.calms_requietSwap ({ rm with bankInService := n } : RoomRec).zeroHistory
  ⟨swapped.conds, id⟩

theorem RoomRec.calms_applySource (rm : RoomRec) (m : Source) : rm.Calms (rm.applySource m) := RoomRec.calms_of_eq rfl rfl id

theorem RoomRec.calms_applyChange (rm : RoomRec) (c : DipChange) : rm.Calms (rm.applyChange c) := by
  cases c with
  | format i => exact rm.calms_applyFormat i
  | source m => exact rm.calms_applySource m
  | bank n => exact rm.calms_applyBank n

theorem RoomRec.calms_applySlots (rm : RoomRec) : rm.Calms rm.applySlots := by
  have opt {α : Type} (o : Option α) (a : RoomRec) (f : α → RoomRec) (hf : ∀ i, a.Calms (f i)) : a.Calms (o.elim a f) := by
    cases o with
    | none => exact .refl a
    | some i => exact hf i
  exact (opt _ _ _ rm.calms_applyFormat).trans ((opt _ _ _ (RoomRec.calms_applySource _)).trans
    ((opt _ _ _ (RoomRec.calms_applyBank _)).trans (RoomRec.calms_of_eq rfl rfl id)))

theorem RoomRec.calms_endDip (rm : RoomRec) : rm.Calms rm.endDip := by
  unfold RoomRec.endDip
  split
  · exact .refl rm
  · exact rm.calms_applySlots.trans (RoomRec.calms_of_eq rfl rfl id)

theorem RoomRec.calms_bottom (rm : RoomRec) : rm.Calms rm.bottom := rm.calms_applySlots.trans (RoomRec.calms_of_eq rfl rfl id)

theorem RoomRec.calms_afterTransit {rm : RoomRec} {f : RoomRec → RoomRec} (hf : ∀ x : RoomRec, x.Calms (f x)) :
    rm.Calms (rm.afterTransit f) :=
  RoomRec.afterTransit_keeps (P := rm.Calms) (.refl rm) (fun _ => rm.calms_endDip) (fun x hx => hx.trans (hf x))
    fun _ hx => hx.trans (RoomRec.calms_of_eq rfl rfl id)

theorem RoomRec.calms_toSettling (rm : RoomRec) : rm.Calms rm.toSettling := by
  unfold RoomRec.toSettling
  dsimp only
  split <;> exact RoomRec.calms_of_eq rfl rfl nofun

theorem RoomRec.calms_toProve (rm : RoomRec) : rm.Calms rm.toProve := by
  unfold RoomRec.toProve
  dsimp only
  split
  · exact RoomRec.calms_of_eq rfl rfl id
  · exact RoomRec.calms_of_eq rfl rfl nofun

/-- What a change gives, whatever the record, and the mark of an entry keeps, holds after it. -/
theorem RoomRec.afterTransit_gives {P : RoomRec → Prop} {f : RoomRec → RoomRec} (rm : RoomRec) (hf : ∀ x, P (f x))
    (hm : ∀ x : RoomRec, P x → P { x with path := { x.path with enteredInBlock := true } }) : P (rm.afterTransit f) :=
  RoomRec.markEntry_keeps _ (hf _) hm

theorem RoomRec.conds_quiet {rm : RoomRec} (h : rm.conds = Vector.replicate 16 .quiet) {x : CondId} (hx : x ≠ .rack) :
    rm.cond x = .quiet := by
  cases x with
  | rack => exact absurd rfl hx
  | level _ k =>
    rw [RoomRec.cond, h, Fin.getElem_fin, Vector.getElem_replicate]
    cases k <;> rfl

/-- A room that enters OFF has every condition QUIET (R138). -/
theorem RoomRec.cond_afterTransit_toOff (rm : RoomRec) (x : CondId) : (rm.afterTransit RoomRec.toOff).cond x = .quiet := by
  refine RoomRec.afterTransit_gives (P := fun y => y.cond x = .quiet) rm (fun y => ?_) fun _ => id
  by_cases hx : x = .rack
  · subst hx
    rfl
  · exact RoomRec.conds_quiet (rm := y.toOff) rfl hx

theorem RoomRec.cond_afterTransit_toHalted (rm : RoomRec) {x : CondId} (hx : x ≠ .rack) :
    (rm.afterTransit RoomRec.toHalted).cond x = .quiet :=
  RoomRec.afterTransit_gives (P := fun y => y.cond x = .quiet) rm (fun y => RoomRec.conds_quiet (rm := y.toHalted) rfl hx) fun _ => id

theorem RoomRec.setBank_eq (rm : RoomRec) (n : BankName) (b : Bank) :
    rm.setBank n b = { rm with bankA := (rm.setBank n b).bankA, bankB := (rm.setBank n b).bankB } := by
  cases n <;> rfl

/-- A load changes nothing of a room but its formats, its decode state and its banks (R71, R110). -/
theorem RoomRec.loaded_eq {rm0 rm : RoomRec} (h : (∃ i e, rm = rm0.writeEntry i e) ∨
    (∃ n c body first count, rm = rm0.setBank n ((rm0.bank n).load c body first count)) ∨
    (∃ n, rm = rm0.setBank n .cleared) ∨ ∃ n, rm = rm0.setBank n (rm0.bank rm0.bankInService)) :
    rm = { rm0 with formats := rm.formats, decode := rm.decode, bankA := rm.bankA, bankB := rm.bankB } := by
  rcases h with ⟨i, e, rfl⟩ | ⟨n, c, body, first, count, rfl⟩ | ⟨n, rfl⟩ | ⟨n, rfl⟩
  · rfl
  all_goals cases n <;> rfl

/-- A sample period that opens moves no room to another state or phase. -/
theorem Path.tick_still (p : Path) : p.tick.state = p.state ∧ p.tick.phase = p.phase := by
  have counted : p.counted.state = p.state ∧ p.counted.phase = p.phase := by
    unfold Path.counted
    split
    · exact ⟨rfl, rfl⟩
    · split <;> exact ⟨rfl, rfl⟩
  rw [Path.tick_eq]
  cases p.counted.ramp <;> exact counted

theorem State.handOn_alarms (s : State) (r : Room) (c : DipChange) : (s.handOn r c).alarms = s.alarms := by
  unfold State.handOn
  dsimp only
  split
  · rfl
  · split
    · rfl
    · split <;> rfl

theorem State.dipBottom_alarms (s : State) (r : Room) : (s.dipBottom r).alarms = s.alarms := by
  unfold State.dipBottom
  dsimp only
  split <;> rfl

theorem State.loadFaderLaw_alarms (s : State) (body : List Payload) : (s.loadFaderLaw body).1.alarms = s.alarms := by
  rw [State.loadFaderLaw]
  split
  · rfl
  · exact State.setLaw_alarms s _

/-- HALTED leaves the RACK condition of a room, and is not OFF (R137). -/
theorem RoomRec.rackCond_afterTransit_toHalted (rm : RoomRec) : (rm.afterTransit RoomRec.toHalted).rackCond = rm.rackCond := by
  have applied : rm.applySlots.rackCond = rm.rackCond := by
    unfold RoomRec.applySlots
    rw [RoomRec.applyFormat_slot]
    cases rm.dip.srcSlot <;> cases rm.dip.bankSlot <;> rfl
  refine RoomRec.afterTransit_keeps (P := fun y => y.rackCond = rm.rackCond) rfl (fun _ => ?_) (fun _ => id) fun _ => id
  unfold RoomRec.endDip
  split
  · rfl
  · exact applied

theorem RoomRec.state_afterTransit_toHalted (rm : RoomRec) : (rm.afterTransit RoomRec.toHalted).path.state = .halted :=
  RoomRec.afterTransit_gives (P := fun y => y.path.state = .halted) rm (fun _ => rfl) fun _ => id

/-! ### The moves -/

/-- The alarm list stays and no room's conditions do more than calm; or the move is one of those that change both. -/
theorem Move.alarms {s t : State} (hm : Move s t) :
    (t.alarms = s.alarms ∧ ∀ r, (s.room r).Calms (t.room r)) ∨ (∃ r, t = s.enterOff r) ∨ (∃ r, t = s.enterHalted r) ∨
    (∃ r x p n, t = s.raiseCond r x p n ∧ (s.room r).path.state ≠ .off) ∨
    (∃ r x, t = s.clearCond r x ∧ ((s.room r).cond x).phase = .raised) ∨
    (∃ r x n m, t = (State.ackOne r (s, n, m) x).1) ∨ t = s.restartBegin := by
  have refl (q : Room) : (s.room q).Calms (s.room q) := .refl _
  have change {r : Room} {f : RoomRec → RoomRec} (hf : (s.room r).Calms (f (s.room r))) :
      (s.modRoom r f).alarms = s.alarms ∧ ∀ q, (s.room q).Calms ((s.modRoom r f).room q) :=
    ⟨rfl, State.forall_modRoom (Q := fun q rm => (s.room q).Calms rm) refl hf⟩
  have transit {r : Room} {own : List NoticeBody} {f : RoomRec → RoomRec} (hf : ∀ x : RoomRec, x.Calms (f x)) :
      (s.transit r own f).alarms = s.alarms ∧ ∀ q, (s.room q).Calms ((s.transit r own f).room q) :=
    ⟨State.transit_alarms s r own f,
      State.forall_transit (Q := fun q rm => (s.room q).Calms rm) refl (RoomRec.calms_afterTransit hf)⟩
  have every {f : RoomRec → RoomRec} (hf : ∀ x : RoomRec, x.Calms (f x)) (q : Room) : (s.room q).Calms ((s.mapRooms f).room q) :=
    State.forall_mapRooms (Q := fun q rm => (s.room q).Calms rm) (fun q => hf _) q
  have still {t u : State} (h : ∀ q, (s.room q).Calms (u.room q)) (hr : t.rooms = u.rooms) (q : Room) : (s.room q).Calms (t.room q) :=
    State.forall_congr (Q := fun q rm => (s.room q).Calms rm) h hr q
  cases hm
  case off r => exact .inr (.inl ⟨r, rfl⟩)
  case halt r _ => exact .inr (.inr (.inl ⟨r, rfl⟩))
  case raise r x p n _ hs => exact .inr (.inr (.inr (.inl ⟨r, x, p, n, rfl, hs⟩)))
  case clear r x h => exact .inr (.inr (.inr (.inr (.inl ⟨r, x, rfl, h⟩))))
  case ack r x n m => exact .inr (.inr (.inr (.inr (.inr (.inl ⟨r, x, n, m, rfl⟩)))))
  case restart => exact .inr (.inr (.inr (.inr (.inr (.inr rfl)))))
  all_goals left
  case quiet part rooms =>
    exact ⟨part.alarms, fun r => RoomRec.calms_of_eq (rooms r).conds (rooms r).rackCond fun k => by rw [(rooms r).path] at k; exact k⟩
  case park | goLive | relive | cancel | proofEnd | loss | found => exact transit fun _ => RoomRec.calms_of_eq rfl rfl nofun
  case listen r _ _ => exact transit RoomRec.calms_toSettling
  case prove r own _ => exact transit RoomRec.calms_toProve
  case handOn r c =>
    exact ⟨State.handOn_alarms s r c, State.forall_handOn (Q := fun q rm => (s.room q).Calms rm) refl
      (fun _ => RoomRec.calms_of_eq rfl rfl id) fun _ => RoomRec.calms_applyChange _ c⟩
  case bottom r _ =>
    exact ⟨State.dipBottom_alarms s r, State.forall_dipBottom (Q := fun q rm => (s.room q).Calms rm) refl (RoomRec.calms_bottom _)⟩
  case law body => exact ⟨State.loadFaderLaw_alarms s body, fun q => by rw [State.room_loadFaderLaw]; exact refl q⟩
  case load r rm _ hw =>
    have e := RoomRec.loaded_eq hw
    refine ⟨rfl, State.forall_commitLoad (Q := fun q rm => (s.room q).Calms rm) refl (RoomRec.calms_of_eq ?_ ?_ ?_)⟩ <;> rw [e]
    exact id
  case trims r n trim =>
    rw [show (fun rm : RoomRec => rm.setBank n _) = _ from funext fun rm => RoomRec.setBank_eq rm n _]
    exact change (RoomRec.calms_of_eq rfl rfl id)
  case judged r x truth h =>
    refine change ⟨fun y => ?_, fun k => by rwa [RoomRec.putCond_path] at k⟩
    rw [RoomRec.cond_putCond]
    split
    · subst_vars
      exact Cond.calms_move h
    · exact .inl rfl
  case alarmEntry r set a => exact change (RoomRec.calms_writeAlarms _ set a)
  case values ws which => exact ⟨rfl, State.forall_takeValues (Q := fun q rm => (s.room q).Calms rm) refl fun _ => RoomRec.calms_of_eq rfl rfl id⟩
  case chains which => exact ⟨rfl, State.forall_stepDecode (Q := fun q rm => (s.room q).Calms rm) refl fun _ => RoomRec.calms_of_eq rfl rfl id⟩
  case tick => exact ⟨rfl, still (every (f := RoomRec.tick s.supply) fun rm =>
      RoomRec.calms_of_eq rfl rfl fun k => rm.path.tick_still.1.symm.trans k) rfl⟩
  case asserted =>
    exact ⟨rfl, still (every (f := fun rm => { rm.cursorToBase with timers := Vector.ofFn fun i => rm.timers[i].freeze })
      fun _ => RoomRec.calms_of_eq rfl rfl id) rfl⟩
  case placed => exact ⟨rfl, every fun _ => RoomRec.calms_of_eq rfl rfl id⟩
  case newBlock => exact ⟨rfl, still (every (f := RoomRec.newBlock) fun _ => RoomRec.calms_of_eq rfl rfl id) rfl⟩
  case lanes ws later =>
    delta State.takeLanes
    exact ⟨rfl, still refl rfl⟩
  case released | storeReady | restartDone | input | ended => exact ⟨rfl, still refl rfl⟩
  case onAir => exact change (RoomRec.calms_of_eq rfl rfl nofun)
  case absence | record | settled | ramp | setRoom | gain | ascent | draftClear | draftAppend | commit | rewind |
    timecode | advance | jump => exact change (RoomRec.calms_of_eq rfl rfl id)

/-! ### What the events of the list do to it and to the conditions -/

theorem State.enterOff_alarms (s : State) (r : Room) : (s.enterOff r).alarms = s.alarms.filter fun e => e.room ≠ r :=
  congrArg (List.filter _) (s.transit_alarms r [] RoomRec.toOff)

theorem State.enterHalted_alarms (s : State) (r : Room) :
    (s.enterHalted r).alarms = s.alarms.map (AlarmEntry.clearChannel r) :=
  congrArg (List.map _) (s.transit_alarms r [] RoomRec.toHalted)

theorem State.room_enterOff (s : State) (r q : Room) :
    (s.enterOff r).room q = if q = r then (s.room r).afterTransit RoomRec.toOff else s.room q := by
  split
  · subst_vars
    exact s.transit_room_self _ [] RoomRec.toOff
  · exact s.transit_room_ne [] RoomRec.toOff ‹_›

theorem State.room_enterHalted (s : State) (r q : Room) :
    (s.enterHalted r).room q = if q = r then (s.room r).afterTransit RoomRec.toHalted else s.room q := by
  split
  · subst_vars
    exact s.transit_room_self _ [] RoomRec.toHalted
  · exact s.transit_room_ne [] RoomRec.toHalted ‹_›

theorem State.raiseCond_alarms (s : State) (r : Room) (x : CondId) (p n : Nat) :
    (s.raiseCond r x p n).alarms = (raiseList s.alarms r x s.blockNumber p).1 := by
  unfold State.raiseCond
  dsimp only
  split <;> rfl

theorem State.room_raiseCond (s : State) (r : Room) (x : CondId) (p n : Nat) (q : Room) :
    (s.raiseCond r x p n).room q = if q = r then
      { (s.room r).putCond x ⟨.raised, 0, (raiseList s.alarms r x s.blockNumber p).2.isNone⟩ with
        unlisted := if (raiseList s.alarms r x s.blockNumber p).2.isNone then (s.room r).unlisted + 1 else (s.room r).unlisted }
      else s.room q := by
  have put : (s.modRoom r fun rm => { rm.putCond x ⟨.raised, 0, (raiseList s.alarms r x s.blockNumber p).2.isNone⟩ with
      unlisted := if (raiseList s.alarms r x s.blockNumber p).2.isNone then rm.unlisted + 1 else rm.unlisted }).room q = _ :=
    s.room_modRoom r q _
  rw [← put]
  unfold State.raiseCond
  dsimp only
  split <;> rfl

/-- The conditions of a room in which one is put, among all. -/
theorem RoomRec.cond_put_of (c : Room → RoomRec) {d : RoomRec} {r q : Room} {x y : CondId} {v : Cond}
    (hd : ∀ y, d.cond y = ((c r).putCond x v).cond y) :
    ((if q = r then d else c q).cond y) = if q = r ∧ y = x then v else (c q).cond y := by
  by_cases e : q = r
  · subst e
    simp only [if_true, hd, RoomRec.cond_putCond, true_and]
  · simp only [e, if_false, false_and]

theorem State.cond_raiseCond (s : State) (r : Room) (x : CondId) (p n : Nat) (q : Room) (y : CondId) :
    ((s.raiseCond r x p n).room q).cond y =
      if q = r ∧ y = x then ⟨.raised, 0, (raiseList s.alarms r x s.blockNumber p).2.isNone⟩ else (s.room q).cond y := by
  rw [State.room_raiseCond]
  exact RoomRec.cond_put_of s.room fun y => RoomRec.cond_congr rfl rfl y

theorem State.cond_putCond (s : State) (r : Room) (x : CondId) (v : Cond) (q : Room) (y : CondId) :
    ((s.modRoom r fun rm => rm.putCond x v).room q).cond y = if q = r ∧ y = x then v else (s.room q).cond y := by
  rw [State.room_modRoom]
  exact RoomRec.cond_put_of s.room fun _ => rfl

theorem State.cond_clearCond (s : State) (r : Room) (x : CondId) (q : Room) (y : CondId) :
    ((s.clearCond r x).room q).cond y = if q = r ∧ y = x then .quiet else (s.room q).cond y :=
  s.cond_putCond r x .quiet q y

theorem State.ackOne_alarms (s : State) (r : Room) (x : CondId) (n m : Nat) :
    (State.ackOne r (s, n, m) x).1.alarms = s.alarms.filter fun e => !e.is r x := by
  unfold State.ackOne
  dsimp only
  split <;> rfl

theorem State.cond_ackOne (s : State) (r : Room) (x : CondId) (n m : Nat) (q : Room) (y : CondId) :
    ((State.ackOne r (s, n, m) x).1.room q).cond y =
      if q = r ∧ y = x ∧ ((s.room r).cond x).phase = .raised then ⟨.heldAck, 0, false⟩ else (s.room q).cond y := by
  unfold State.ackOne
  dsimp only
  split
  · rename_i hp
    simp only [hp, and_true]
    exact s.cond_putCond r x _ q y
  · rw [if_neg fun k => ‹¬_› k.2.2]
    rfl

theorem State.restartBegin_alarms (s : State) : s.restartBegin.alarms = [] := rfl

theorem State.room_restartBegin (s : State) (q : Room) : s.restartBegin.room q = (s.room q).restart s.law := by
  have rooms : s.restartBegin.rooms = (s.mapRooms (RoomRec.restart s.law)).rooms := rfl
  have every (q : Room) : (s.mapRooms (RoomRec.restart s.law)).room q = (s.room q).restart s.law := s.room_mapRooms q _
  exact State.forall_congr (Q := fun q rm => rm = (s.room q).restart s.law) every rooms q

theorem RoomRec.cond_restart (rm : RoomRec) (law : Vector Nat 101) (x : CondId) : (rm.restart law).cond x = .quiet := by
  by_cases hx : x = .rack
  · subst hx
    rfl
  · exact RoomRec.conds_quiet (rm := rm.restart law) rfl hx

theorem AlarmsAgree.nil {c : Room → CondId → Cond} (h : ∀ r x, c r x = .quiet) : AlarmsAgree [] c :=
  ⟨Nat.zero_le _, List.nodup_nil, nofun, fun r x => by rw [h]; exact ⟨nofun, nofun⟩⟩

theorem Move.alarmsOk {s t : State} (hm : Move s t) (h : s.alarmsOk) : t.alarmsOk := by
  rw [State.alarmsOk_iff] at h ⊢
  rcases hm.alarms with ⟨e, rooms⟩ | ⟨r, rfl⟩ | ⟨r, rfl⟩ | ⟨r, x, p, n, rfl, -⟩ | ⟨r, x, rfl, hp⟩ | ⟨r, x, n, m, rfl⟩ | rfl
  · rw [e]
    exact h.calm fun r x => (rooms r).conds x
  · rw [State.enterOff_alarms]
    simp only [State.room_enterOff]
    exact h.leave (fun x => by rw [if_pos rfl, RoomRec.cond_afterTransit_toOff]) fun q x hq => by rw [if_neg hq]
  · rw [State.enterHalted_alarms]
    simp only [State.room_enterHalted]
    refine h.haltRoom (fun x hx => ?_) ?_ fun q x hq => by rw [if_neg hq]
    · rw [if_pos rfl, RoomRec.cond_afterTransit_toHalted _ hx]
    · rw [if_pos rfl]
      exact RoomRec.rackCond_afterTransit_toHalted _
  · rw [State.raiseCond_alarms]
    simp only [State.cond_raiseCond]
    exact h.raise (fun q y hq => if_neg hq) _ p (if_pos ⟨rfl, rfl⟩)
  · simp only [State.cond_clearCond]
    exact h.clear (fun q y hq => if_neg hq) hp (if_pos ⟨rfl, rfl⟩)
  · rw [State.ackOne_alarms]
    simp only [State.cond_ackOne]
    refine h.ack (fun q y hq => if_neg fun k => hq ⟨k.1, k.2.1⟩) ?_
    by_cases hp : ((s.room r).cond x).phase = .raised
    · exact .inr (if_pos ⟨rfl, rfl, hp⟩)
    · exact .inl ⟨if_neg fun k => hp k.2.2, hp⟩
  · rw [State.restartBegin_alarms]
    exact AlarmsAgree.nil fun r x => by rw [State.room_restartBegin, RoomRec.cond_restart]

/-- The rooms of the entries of the list after a raising are those before, and the room of the raising (R131). -/
theorem mem_raiseList {l : List AlarmEntry} {r : Room} {x : CondId} {blk : BitVec 32} {p : Nat} {e : AlarmEntry}
    (h : e ∈ (raiseList l r x blk p).1) : e.room = r ∨ ∃ y ∈ l, y.room = e.room := by
  unfold raiseList at h
  split at h
  · obtain ⟨y, hy, rfl⟩ := List.mem_map.1 h
    exact .inr ⟨y, hy, by split <;> rfl⟩
  · have last {k : List AlarmEntry} (hk : ∀ y ∈ k, y ∈ l) (he : e ∈ k ++ [.first r x blk p]) :
        e.room = r ∨ ∃ y ∈ l, y.room = e.room := by
      rcases List.mem_append.1 he with he | he
      · exact .inr ⟨e, hk e he, rfl⟩
      · exact .inl (by rw [List.mem_singleton.1 he]; rfl)
    split at h
    · exact last (fun _ => id) h
    · split at h
      · exact last (fun _ => List.mem_of_mem_eraseIdx) h
      · exact .inr ⟨e, h, rfl⟩

theorem Move.offUnlisted {s t : State} (hm : Move s t) (h : s.offUnlisted) : t.offUnlisted := by
  unfold State.offUnlisted at h ⊢
  rcases hm.alarms with ⟨e, rooms⟩ | ⟨r, rfl⟩ | ⟨r, rfl⟩ | ⟨r, x, p, n, rfl, hs⟩ | ⟨r, x, rfl, hp⟩ | ⟨r, x, n, m, rfl⟩ | rfl
  · rw [e]
    exact fun e he hs => h e he ((rooms _).off hs)
  · rw [State.enterOff_alarms]
    intro e he
    obtain ⟨hin, hne⟩ := List.mem_filter.1 he
    rw [State.room_enterOff, if_neg (by simpa using hne)]
    exact h e hin
  · rw [State.enterHalted_alarms]
    intro e he
    obtain ⟨y, hy, rfl⟩ := List.mem_map.1 he
    rw [(AlarmEntry.clearChannel_keeps r y).1, State.room_enterHalted]
    split
    · rw [RoomRec.state_afterTransit_toHalted]
      exact nofun
    · exact h y hy
  · have path (q : Room) : ((s.raiseCond r x p n).room q).path = (s.room q).path :=
      State.forall_raiseCond (Q := fun q rm => rm.path = (s.room q).path) (fun _ => rfl) (fun u _ => RoomRec.putCond_path _ x u) q
    rw [State.raiseCond_alarms]
    intro e he
    rw [path]
    rcases mem_raiseList he with hr | ⟨y, hy, hr⟩
    · rw [hr]
      exact hs
    · rw [← hr]
      exact h y hy
  · have path (q : Room) : ((s.clearCond r x).room q).path = (s.room q).path :=
      State.forall_modRoom (Q := fun q rm => rm.path = (s.room q).path) (f := fun rm => rm.putCond x .quiet) (fun _ => rfl)
        (RoomRec.putCond_path _ x .quiet) q
    intro e he
    obtain ⟨y, hy, rfl⟩ := List.mem_map.1 he
    rw [path]
    have hr : (if !((s.room r).cond x).unlisted && y.is r x then { y with active := false } else y).room = y.room := by split <;> rfl
    rw [hr]
    exact h y hy
  · have path (q : Room) : ((State.ackOne r (s, n, m) x).1.room q).path = (s.room q).path :=
      State.forall_ackOne (Q := fun q rm => rm.path = (s.room q).path) (fun _ => rfl) (RoomRec.putCond_path _ x _) q
    rw [State.ackOne_alarms]
    intro e he
    rw [path]
    exact h e (List.mem_filter.1 he).1
  · rw [State.restartBegin_alarms]
    exact nofun

/-! ### Every step -/

theorem Turn.alarmsOk {s t : State} (ht : Turn s t) (h : s.alarmsOk) : t.alarmsOk := by
  cases ht with
  | move hm => exact hm.alarmsOk h
  | desk m out => exact h
  | close _ => exact h

theorem Turn.offUnlisted {s t : State} (ht : Turn s t) (h : s.offUnlisted) : t.offUnlisted := by
  cases ht with
  | move hm => exact hm.offUnlisted h
  | desk m out => exact h
  | close _ => exact h

theorem State.alarmsOk_fullReset (s : State) (line : Bool) : (s.fullReset line).alarmsOk := by
  refine (State.alarmsOk_iff _).2 (AlarmsAgree.nil fun r x => ?_)
  rw [State.room_fullReset]
  by_cases hx : x = .rack
  · subst hx
    rfl
  · exact RoomRec.conds_quiet rfl hx

/-- Settles O55: a condition moves between RAISED and the others only together with its entry. -/
theorem alarmsKept : Obligations.AlarmsKept := fun _ _ hs =>
  ⟨step_keeps (fun _ _ => id) State.alarmsOk_fullReset (fun _ _ => Turn.alarmsOk) hs,
    step_keeps (fun _ _ => id) (fun _ _ => nofun) (fun _ _ => Turn.offUnlisted) hs⟩

end Sys2Proof.Machine
end

section
/-! Signal arithmetic and surround decoding (03, 04): the values of ramps, dips, envelopes and dominance indices (O30), and every step
keeps the gains, the dips, the samples and the decode states in order (O56). -/

namespace Sys2Proof.Machine

/-! ### Values and their ranges (R25, R61, R65, R83, R84) -/

theorem interp_eq (a b len n : Nat) :
    interp a b len n = if a ≤ b then a + (b - a) * n / len else a - (a - b) * n / len := by
  split
  · exact interp_of_le ‹_› len n
  · exact interp_of_ge (by omega) len n

theorem interp_self {a b len : Nat} (h : 0 < len) : interp a b len len = b := by
  rw [interp_eq]
  split <;> rw [Nat.mul_div_cancel _ h] <;> omega

/-- The gain of an envelope is the floor of the distance by the power of its shift (R83). -/
theorem envelope_gain (attack release : Nat) (e a : Int) :
    envelope attack release e a - e = (a - e) / 2 ^ (if e < a then attack else release) := by
  unfold envelope
  omega

theorem div_floor_bounds (x : Int) {y : Int} (h : 0 < y) : x / y * y ≤ x ∧ x < (x / y + 1) * y :=
  ⟨Int.ediv_mul_le x h.ne', Int.lt_ediv_add_one_mul_self x h⟩

/-- An envelope moves between its old value and the magnitude (R83). -/
theorem envelope_between (attack release : Nat) (e a : Int) :
    min e a ≤ envelope attack release e a ∧ envelope attack release e a ≤ max e a := by
  have pow : (0 : Int) < 2 ^ (if e < a then attack else release) := by positivity
  have gain := envelope_gain attack release e a
  have one : (1 : Int) ≤ 2 ^ (if e < a then attack else release) := pow
  have floor := div_floor_bounds (a - e) pow
  generalize (2 : Int) ^ (if e < a then attack else release) = k at *
  generalize hq : (a - e) / k = q at *
  rcases le_total e a with h | h
  · have low : 0 ≤ q := hq ▸ Int.ediv_nonneg (by omega) pow.le
    have high : q ≤ a - e := by nlinarith
    rw [min_eq_left h, max_eq_right h]
    omega
  · have high : q ≤ 0 := by nlinarith
    have low : a - e ≤ q := hq ▸ by
      rw [Int.le_ediv_iff_mul_le pow]
      nlinarith
    rw [min_eq_right h, max_eq_left h]
    omega

/-- The quotient that gives a dominance index lies in −16 to 16 (R84). -/
theorem dominance_between (floor : Nat) {last x y : Int} (hx : 0 ≤ x) (hy : 0 ≤ y) (h1 : -16 ≤ last) (h2 : last ≤ 16) :
    -16 ≤ dominance floor last x y ∧ dominance floor last x y ≤ 16 := by
  unfold dominance
  split
  · have pos : 0 < 2 * (x + y) := by omega
    constructor
    · rw [Int.le_ediv_iff_mul_le pos]
      omega
    · rw [Int.ediv_le_iff_le_mul pos]
      omega
  · exact ⟨h1, h2⟩

/-- Settles O30: each value is a quotient, bounded by what its divisor gives. -/
theorem valuesStayInRange : Obligations.ValuesStayInRange := by
  refine ⟨⟨fun a b len n hlen hn => ⟨interp_eq a b len n, interp_zero a b len, interp_self hlen, interp_between hn a b⟩,
    fun n hn => ⟨rfl, rfl, rfl, dipFactor_le .descent hn, dipFactor_le .ascent hn⟩⟩,
    fun attack release e a => ?_, fun attack release e a _ _ _ _ => envelope_between attack release e a,
    fun floor last x y hpos hfloor => ?_, fun floor last x y hx hy h1 h2 => ?_⟩
  · dsimp only
    rw [envelope_gain]
    refine ⟨fun h => ?_, fun h => ?_⟩
    · rw [if_pos h]
      exact div_floor_bounds _ (by positivity)
    · rw [if_neg (by omega)]
      exact div_floor_bounds _ (by positivity)
  · dsimp only
    rw [dominance, if_pos ⟨hfloor, hpos.ne'⟩]
    exact div_floor_bounds _ (by omega)
  · obtain ⟨low, high⟩ := dominance_between floor hx hy h1 h2
    exact ⟨low, high, fun h => if_neg (by omega)⟩

/-! ### Gains and dips (R61 to R68) -/

theorem Dip.ok_idle {dp : Dip} (hs : dp.stage = .idle) (hn : dp.step = 0) (hd : dp.d = 65536) (hf : dp.filled = false)
    (ho : dp.followOn = false) : dp.ok := by
  unfold Dip.ok
  rw [hs]
  exact ⟨by omega, hn, hd, hf, ho⟩

theorem Dip.ok_reset : Dip.reset.ok := Dip.ok_idle rfl rfl rfl rfl rfl

/-- A dip in flight is in order by its step and factor alone (R65). -/
theorem Dip.ok_of_flight {dp : Dip} (hs : dp.stage ≠ .idle) (hn : dp.step ≤ 240) (hd : dp.d = dipFactor dp.stage dp.step) : dp.ok := by
  refine ⟨hn, ?_⟩
  cases h : dp.stage with
  | idle => exact absurd h hs
  | descent | ascent => rw [h] at hd; exact hd

theorem Dip.ok.factor {dp : Dip} (h : dp.ok) : dp.d = dipFactor dp.stage dp.step := by
  obtain ⟨-, h⟩ := h
  cases hs : dp.stage with
  | idle =>
    rw [hs] at h
    obtain ⟨-, hd, -⟩ := h
    exact hd
  | descent | ascent => rw [hs] at h; exact h

theorem Dip.ok_advance {dp : Dip} (h : dp.ok) : dp.advance.ok := by
  unfold Dip.advance
  split
  · exact h
  · rename_i hs
    exact Dip.ok_of_flight hs (Nat.min_le_left _ _) rfl

/-- The slots of a dip in flight are free. -/
theorem Dip.ok_slots {a b : Dip} (h : a.ok) (hs : a.stage ≠ .idle) (e : b = { a with
    fmtSlot := b.fmtSlot, srcSlot := b.srcSlot, bankSlot := b.bankSlot, followOn := b.followOn }) : b.ok := by
  rw [e]
  exact Dip.ok_of_flight hs h.1 h.factor

/-- A change in a room with a dip leaves the dip in order (R66). -/
theorem Dip.ok_hand {dp : Dip} (h : dp.ok) (active : Bool) (c : DipChange) : (dp.hand active c).ok := by
  unfold Dip.hand
  split
  · exact h
  · rename_i hs
    refine Dip.ok_of_flight nofun (Nat.zero_le _) ?_
    have full := h.factor
    rw [hs] at full
    cases c <;> exact full.trans (show 65536 = dipFactor .descent 0 by decide)
  all_goals
    rename_i hs
    exact Dip.ok_slots h (by rw [hs]; exact nofun) (by cases c <;> rfl)

theorem Dip.ok_endAscent (dp : Dip) : dp.endAscent.ok := by
  cases hf : dp.filled with
  | true => exact Dip.ok_of_flight (by simp [Dip.endAscent, hf]) (Nat.zero_le _) (by simp [Dip.endAscent, hf, dipFactor, Config.unity, Config.dipSteps])
  | false => exact Dip.ok_idle (by simp [Dip.endAscent, hf]) rfl rfl hf rfl

theorem Dip.advance_idle {dp : Dip} (h : dp.stage = .idle) : dp.advance.stage = .idle := by
  unfold Dip.advance
  rw [h]
  exact h

/-- A room's factors: its gain and its dip are in order, and only a room in LIVE has a dip (R61, R65, R68). -/
def RoomRec.factorsOk (rm : RoomRec) : Prop :=
  rm.gain.ok ∧ rm.dip.ok ∧ (rm.path.state ≠ .live → rm.dip.stage = .idle)

theorem RoomRec.factorsOk_congr {a b : RoomRec} (h : a.factorsOk) (hg : b.gain = a.gain) (hd : b.dip = a.dip)
    (hs : b.path.state = a.path.state) : b.factorsOk := by
  unfold RoomRec.factorsOk
  rw [hg, hd, hs]
  exact h

/-- A room in LIVE may have a dip. -/
theorem RoomRec.factorsOk_live {a b : RoomRec} (h : a.factorsOk) (hg : b.gain = a.gain) (hd : b.dip = a.dip)
    (hs : b.path.state = .live) : b.factorsOk := by
  obtain ⟨hgain, hdip, -⟩ := h
  exact ⟨hg ▸ hgain, hd ▸ hdip, absurd hs⟩

theorem RoomRec.applySlots_stage (rm : RoomRec) : rm.applySlots.dip.stage = rm.dip.stage := by
  unfold RoomRec.applySlots
  rw [RoomRec.applyFormat_slot]
  cases rm.dip.srcSlot <;> cases rm.dip.bankSlot <;> rfl

/-- The bottom of a dip begins an ascent at step 0, where d is 0 (R65, R67). -/
theorem RoomRec.factorsOk_bottom {rm : RoomRec} (h : rm.factorsOk) (hd : rm.dip.bottomDue = true) : rm.bottom.factorsOk := by
  obtain ⟨hgain, hdip, hlive⟩ := h
  obtain ⟨hs, hn⟩ := of_decide_eq_true hd
  obtain ⟨eg, ed, ep⟩ := rm.applySlots_frame
  refine ⟨eg ▸ hgain, Dip.ok_of_flight nofun (Nat.zero_le _) ?_, fun k => ?_⟩
  · have zero := hdip.factor
    have last : rm.dip.step = 240 := le_antisymm hdip.1 hn
    rw [hs, last] at zero
    exact ed.trans zero
  · have k' := hlive (ep ▸ k)
    rw [hs] at k'
    cases k'

theorem RoomRec.endDip_factors (rm : RoomRec) : rm.endDip.gain = rm.gain ∧ (rm.dip.ok → rm.endDip.dip.ok) ∧ rm.endDip.dip.stage = .idle := by
  obtain ⟨eg, -, -⟩ := rm.applySlots_frame
  unfold RoomRec.endDip
  split
  · exact ⟨rfl, id, ‹_›⟩
  · exact ⟨eg, fun _ => Dip.ok_reset, rfl⟩

/-- A room that leaves LIVE ends its dip (R68). -/
theorem RoomRec.factorsOk_afterTransit {rm : RoomRec} {f : RoomRec → RoomRec} (h : rm.factorsOk)
    (hf : ∀ x, (f x).gain = x.gain ∧ (f x).dip = x.dip) : (rm.afterTransit f).factorsOk := by
  refine RoomRec.markEntry_keeps _ ?_ fun x hx => RoomRec.factorsOk_congr hx rfl rfl rfl
  obtain ⟨hgain, hdip, hlive⟩ := h
  obtain ⟨eg, ed, es⟩ := rm.endDip_factors
  split
  · refine ⟨?_, ?_, fun _ => ?_⟩
    · rw [(hf _).1, eg]
      exact hgain
    · rw [(hf _).2]
      exact ed hdip
    · rw [(hf _).2, es]
  · rename_i stays
    refine ⟨?_, ?_, fun k => ?_⟩
    · rw [(hf _).1]
      exact hgain
    · rw [(hf _).2]
      exact hdip
    · rw [(hf _).2]
      exact hlive fun k' => stays ⟨k', k⟩

theorem RoomRec.factorsOk_applyChange {rm : RoomRec} (h : rm.factorsOk) (c : DipChange) : (rm.applyChange c).factorsOk := by
  cases c with
  | format i =>
    rw [RoomRec.applyChange, RoomRec.applyFormat_eq]
    exact h
  | source m => exact h
  | bank n => exact h

/-- A move leaves the fader law, or loads it (R59). -/
theorem Move.law_eq {s t : State} (hm : Move s t) : t.law = s.law ∨ ∃ body, t = (s.loadFaderLaw body).1 := by
  have transit (r : Room) (own : List NoticeBody) (f : RoomRec → RoomRec) : (s.transit r own f).law = s.law :=
    State.onlyRooms_law (State.onlyRooms_transit s r own f)
  cases hm
  case law body => exact .inr ⟨body, rfl⟩
  all_goals left
  case quiet part _ => exact part.law
  case off r => exact State.onlyRooms_law (State.onlyRooms_enterOff s r)
  case halt r _ => exact State.onlyRooms_law (State.onlyRooms_enterHalted s r)
  case park | listen | prove | goLive | relive | cancel | proofEnd | loss | found =>
    exact transit _ _ _
  case handOn r c => exact State.onlyRooms_law (State.onlyRooms_handOn s r c)
  case bottom r _ => exact State.onlyRooms_law (State.onlyRooms_dipBottom s r)
  case raise r x p n _ _ => exact State.onlyRooms_law (State.onlyRooms_raiseCond s r x p n)
  case clear r x _ => exact State.onlyRooms_law (State.onlyRooms_clearCond s r x)
  case ack r x n m => exact State.onlyRooms_law (State.onlyRooms_ackOne s r x n m)
  case lanes ws later =>
    delta State.takeLanes
    rfl
  all_goals rfl

/-- The gains of the fader law lie in their range (R59). -/
def State.lawOk (s : State) : Prop := ∀ f : Fin 101, s.law[f] ≤ 131071

theorem State.lawOk_setLaw {s : State} {law : Vector Nat 101} (h : ∀ f : Fin 101, law[f] ≤ 131071) : ({ s with law := law } : State).lawOk := h

theorem State.lawOk_loadFaderLaw {s : State} (body : List Payload) (h : s.lawOk) : (s.loadFaderLaw body).1.lawOk := by
  rw [State.loadFaderLaw]
  split
  · exact h
  · refine State.lawOk_setLaw fun f => ?_
    rw [Fin.getElem_fin, Vector.getElem_ofFn]
    split
    · exact Nat.min_le_left _ _
    · exact h f

theorem Move.factorsOk {s t : State} (hm : Move s t) (h : s.factorsOk) : t.factorsOk := by
  obtain ⟨hlaw, hroom⟩ := h
  change ∀ q, (s.room q).factorsOk at hroom
  refine ⟨?_, show ∀ q, (t.room q).factorsOk from ?_⟩
  · rcases hm.law_eq with e | ⟨body, rfl⟩
    · rw [e]
      exact hlaw
    · exact State.lawOk_loadFaderLaw body hlaw
  have change {r : Room} {f : RoomRec → RoomRec} (hf : (f (s.room r)).factorsOk) (q : Room) : ((s.modRoom r f).room q).factorsOk :=
    State.forall_modRoom (Q := fun _ rm => rm.factorsOk) hroom hf q
  have keep {r : Room} {f : RoomRec → RoomRec} (hg : (f (s.room r)).gain = (s.room r).gain) (hd : (f (s.room r)).dip = (s.room r).dip)
      (hs : (f (s.room r)).path.state = (s.room r).path.state) (q : Room) : ((s.modRoom r f).room q).factorsOk :=
    change (RoomRec.factorsOk_congr (hroom r) hg hd hs) q
  have transit {r : Room} {own : List NoticeBody} {f : RoomRec → RoomRec} (hf : ∀ x, (f x).gain = x.gain ∧ (f x).dip = x.dip)
      (q : Room) :
      ((s.transit r own f).room q).factorsOk :=
    State.forall_transit (Q := fun _ rm => rm.factorsOk) hroom (RoomRec.factorsOk_afterTransit (hroom r) hf) q
  have every {f : RoomRec → RoomRec} (hf : ∀ x : RoomRec, x.factorsOk → (f x).factorsOk) (q : Room) : ((s.mapRooms f).room q).factorsOk :=
    State.forall_mapRooms (Q := fun _ rm => rm.factorsOk) (fun q => hf _ (hroom q)) q
  have still {t u : State} (h : ∀ q, (u.room q).factorsOk) (hr : t.rooms = u.rooms) (q : Room) : (t.room q).factorsOk :=
    State.forall_congr (Q := fun _ rm => rm.factorsOk) h hr q
  have put {rm : RoomRec} (h : rm.factorsOk) (x : CondId) (v : Cond) : (rm.putCond x v).factorsOk := by
    cases x <;> exact h
  cases hm
  case quiet part rooms => exact fun r => RoomRec.factorsOk_congr (hroom r) (rooms r).gain (rooms r).dip (by rw [(rooms r).path])
  case off r => exact still (transit (r := r) (own := []) (f := RoomRec.toOff) fun _ => ⟨rfl, rfl⟩) rfl
  case halt r _ => exact still (transit (r := r) (own := []) (f := RoomRec.toHalted) fun _ => ⟨rfl, rfl⟩) rfl
  case park | goLive | relive | cancel | proofEnd | loss | found => exact transit fun _ => ⟨rfl, rfl⟩
  case listen r _ _ =>
    refine transit fun x => ?_
    unfold RoomRec.toSettling
    dsimp only
    split <;> exact ⟨rfl, rfl⟩
  case prove r own _ =>
    refine transit fun x => ?_
    unfold RoomRec.toProve
    dsimp only
    split <;> exact ⟨rfl, rfl⟩
  case onAir r _ _ => exact change (RoomRec.factorsOk_live (hroom r) rfl rfl rfl)
  case gain r g hg =>
    obtain ⟨hgain, hdip, hlive⟩ := hroom r
    refine change ⟨?_, hdip, hlive⟩
    rcases hg with ⟨step, ms, rfl⟩ | ⟨yes, rfl⟩ | rfl
    · exact Gain.ok_set hgain hlaw step ms
    · exact Gain.ok_setMute hgain hlaw yes
    · exact Gain.ok_endFade hgain
  case handOn r c =>
    obtain ⟨hgain, hdip, -⟩ := hroom r
    refine State.forall_handOn (Q := fun _ rm => rm.factorsOk) hroom (fun k => ⟨hgain, Dip.ok_hand hdip _ c, absurd k⟩) fun _ => ?_
    exact RoomRec.factorsOk_applyChange (hroom r) c
  case bottom r hd => exact State.forall_dipBottom (Q := fun _ rm => rm.factorsOk) hroom (RoomRec.factorsOk_bottom (hroom r) hd)
  case ascent r hd =>
    obtain ⟨hgain, -, hlive⟩ := hroom r
    refine change ⟨hgain, Dip.ok_endAscent _, fun k => ?_⟩
    have idle := hlive k
    rw [(of_decide_eq_true hd).1] at idle
    cases idle
  case law body => exact fun q => by rw [State.room_loadFaderLaw]; exact hroom q
  case load r rm _ hw =>
    rw [RoomRec.loaded_eq hw]
    exact State.forall_commitLoad (Q := fun _ rm => rm.factorsOk) hroom (RoomRec.factorsOk_congr (hroom r) rfl rfl rfl)
  case trims r n trim =>
    rw [show (fun rm : RoomRec => rm.setBank n _) = _ from funext fun rm => RoomRec.setBank_eq rm n _]
    exact keep rfl rfl rfl
  case raise r x p n _ _ =>
    exact State.forall_raiseCond (Q := fun _ rm => rm.factorsOk) hroom fun u _ => put (hroom r) x u
  case clear r x _ => exact change (f := fun rm => rm.putCond x .quiet) (put (hroom r) x _)
  case ack r x n m => exact State.forall_ackOne (Q := fun _ rm => rm.factorsOk) hroom (put (hroom r) x _)
  case judged r x truth h => exact change (put (hroom r) x _)
  case values ws which =>
    exact State.forall_takeValues (Q := fun _ rm => rm.factorsOk) hroom fun q => RoomRec.factorsOk_congr (hroom q) rfl rfl rfl
  case chains which =>
    exact State.forall_stepDecode (Q := fun _ rm => rm.factorsOk) hroom fun q => RoomRec.factorsOk_congr (hroom q) rfl rfl rfl
  case tick =>
    exact still (every (f := RoomRec.tick s.supply) fun rm ⟨hgain, hdip, hlive⟩ =>
      ⟨Gain.ok_advance hgain, Dip.ok_advance hdip, fun k => Dip.advance_idle (hlive (rm.path.tick_still.1 ▸ k))⟩) rfl
  case asserted =>
    exact still (every (f := fun rm => { rm.cursorToBase with timers := Vector.ofFn fun i => rm.timers[i].freeze })
      fun _ hx => RoomRec.factorsOk_congr hx rfl rfl rfl) rfl
  case placed => exact every fun _ hx => RoomRec.factorsOk_congr hx rfl rfl rfl
  case newBlock => exact still (every (f := RoomRec.newBlock) fun _ hx => RoomRec.factorsOk_congr hx rfl rfl rfl) rfl
  case restart =>
    exact still (every (f := RoomRec.restart s.law) fun rm _ => ⟨Gain.ok_of_still (hlaw rm.gain.step) rfl, Dip.ok_reset, fun _ => rfl⟩) rfl
  case lanes ws later =>
    delta State.takeLanes
    exact still hroom rfl
  case released | storeReady | restartDone | input | ended => exact still hroom rfl
  case absence | record | settled | ramp | setRoom | alarmEntry | draftClear | draftAppend | commit | rewind |
    timecode | advance | jump => exact keep rfl rfl rfl

/-! ### Samples and decode states (R32, R83, R84) -/

theorem DecodeState.ok_zero : DecodeState.zero.ok := by
  unfold DecodeState.ok
  decide

theorem laneSample_isSample (w : Word) : isSample (laneSample w) := by
  have low := BitVec.le_toInt (w.extractLsb' 0 24)
  have high := BitVec.toInt_lt (x := w.extractLsb' 0 24)
  unfold isSample laneSample
  omega

/-- The decode state advances on samples to values in their ranges (R83, R84). -/
theorem DecodeState.ok_advance {d : DecodeState} (h : d.ok) (p : Profile) {lt rt : Int} (hl : isSample lt) (hr : isSample rt) :
    (d.advance p lt rt).ok := by
  obtain ⟨henv, hix⟩ := h
  have step (e a : Int) (he : 0 ≤ e ∧ e ≤ 8388608) (ha : 0 ≤ a ∧ a ≤ 8388608) :
      0 ≤ envelope p.attack p.release e a ∧ envelope p.attack p.release e a ≤ 8388608 := by
    have between := envelope_between p.attack p.release e a
    omega
  have hL := step d.eL lt.natAbs (henv _ (by simp)) (by unfold isSample at hl; omega)
  have hR := step d.eR rt.natAbs (henv _ (by simp)) (by unfold isSample at hr; omega)
  have hS := step d.eS (sumHalf lt rt).natAbs (henv _ (by simp)) (by unfold isSample at hl hr; unfold sumHalf; omega)
  have hD := step d.eD (diffHalf lt rt).natAbs (henv _ (by simp)) (by unfold isSample at hl hr; unfold diffHalf; omega)
  have hlr := hix d.lr (by simp)
  have hcs := hix d.cs (by simp)
  refine ⟨fun e he => ?_, fun x hx => ?_⟩
  · simp only [DecodeState.advance, List.mem_cons, List.not_mem_nil, or_false] at he
    rcases he with rfl | rfl | rfl | rfl <;> assumption
  · simp only [DecodeState.advance, List.mem_cons, List.not_mem_nil, or_false] at hx
    rcases hx with rfl | rfl
    · exact dominance_between p.floor hL.1 hR.1 hlr.1 hlr.2
    · exact dominance_between p.floor hS.1 hD.1 hcs.1 hcs.2

/-- A room's signals: its programme channels are samples and its decode states in range, also one that chains put ahead use. -/
def RoomRec.signalsOk (rm : RoomRec) : Prop :=
  (∀ c : Chan, isSample rm.prog[c]) ∧ rm.decode.ok ∧ ∀ e, rm.ahead = some e → e.decode.ok

theorem RoomRec.decodeStep_ok {rm : RoomRec} (hp : ∀ c : Chan, isSample rm.prog[c]) (hd : rm.decode.ok) (p : Profile) :
    (rm.decodeStep p).ok := by
  unfold RoomRec.decodeStep
  split
  · exact DecodeState.ok_advance hd p (hp 0) (hp 1)
  · exact hd

theorem RoomRec.asChained_of_some {rm : RoomRec} {e : Early} (h : rm.ahead = some e) :
    rm.asChained.prog = rm.prog ∧ rm.asChained.decode = e.decode := by
  unfold RoomRec.asChained
  rw [h]
  cases hb : rm.bankInService <;> simp [RoomRec.setHist, RoomRec.setBank]

theorem RoomRec.signalsOk_decodeAfter {rm : RoomRec} (h : rm.signalsOk) (p : Profile) :
    RoomRec.signalsOk { rm with decode := rm.decodeAfter p } := by
  obtain ⟨hp, hd, ha⟩ := h
  refine ⟨hp, ?_, ha⟩
  show (rm.decodeAfter p).ok
  unfold RoomRec.decodeAfter
  split
  · exact RoomRec.decodeStep_ok hp hd p
  · rename_i e he
    split
    · obtain ⟨eprog, edecode⟩ := RoomRec.asChained_of_some he
      exact RoomRec.decodeStep_ok (by rw [eprog]; exact hp) (by rw [edecode]; exact ha e he) p
    · exact hd

theorem RoomRec.signalsOk_congr {a b : RoomRec} (h : a.signalsOk) (hp : b.prog = a.prog) (hd : b.decode = a.decode)
    (ha : b.ahead = a.ahead) : b.signalsOk := by
  unfold RoomRec.signalsOk
  rw [hp, hd, ha]
  exact h

/-- The decode state that chains put ahead use stays, or is put to 0 (R58, R74, R81). -/
theorem RoomRec.signalsOk_early {rm : RoomRec} (h : rm.signalsOk) (f : Early → Early)
    (hf : ∀ e : Early, (f e).decode = e.decode ∨ (f e).decode = .zero) : RoomRec.signalsOk { rm with ahead := rm.ahead.map f } := by
  obtain ⟨hp, hd, ha⟩ := h
  refine ⟨hp, hd, fun e he => ?_⟩
  obtain ⟨x, hx, rfl⟩ := Option.map_eq_some_iff.1 he
  rcases hf x with k | k <;> rw [k]
  · exact ha x hx
  · exact DecodeState.ok_zero

theorem RoomRec.signalsOk_zeroHistory {rm : RoomRec} (h : rm.signalsOk) : rm.zeroHistory.signalsOk :=
  RoomRec.signalsOk_congr (RoomRec.signalsOk_early h Early.dropHistory fun _ => .inl rfl) rfl rfl rfl

theorem RoomRec.signalsOk_zeroDecode {rm : RoomRec} (h : rm.signalsOk) : rm.zeroDecode.signalsOk := by
  obtain ⟨hp, -, ha⟩ := RoomRec.signalsOk_early h Early.dropDecode fun _ => .inl rfl
  exact ⟨hp, DecodeState.ok_zero, ha⟩

theorem RoomRec.signalsOk_applyFormat {rm : RoomRec} (i : Fin 4) (h : rm.signalsOk) : (rm.applyFormat i).signalsOk := by
  unfold RoomRec.applyFormat
  split
  · exact RoomRec.signalsOk_zeroDecode (rm := { rm with activeFormat := i }) h
  · exact h

theorem RoomRec.signalsOk_applyBank {rm : RoomRec} (n : BankName) (h : rm.signalsOk) : (rm.applyBank n).signalsOk :=
  RoomRec.signalsOk_congr (RoomRec.signalsOk_zeroHistory (rm := { rm with bankInService := n }) h) rfl rfl rfl

theorem RoomRec.signalsOk_applyChange {rm : RoomRec} (h : rm.signalsOk) (c : DipChange) : (rm.applyChange c).signalsOk := by
  cases c with
  | format i => exact RoomRec.signalsOk_applyFormat i h
  | source m => exact h
  | bank n => exact RoomRec.signalsOk_applyBank n h

/-- What each change keeps, and the emptying of the slots, the application of the filled slots keeps (R67). -/
theorem RoomRec.applySlots_keeps {P : RoomRec → Prop} {rm : RoomRec} (h : P rm) (hc : ∀ x c, P x → P (x.applyChange c))
    (he : ∀ x, P x → P x.emptySlots) : P rm.applySlots := by
  have opt {α : Type} (o : Option α) (a : RoomRec) (f : α → RoomRec) (ha : P a) (hf : ∀ i, P (f i)) : P (o.elim a f) := by
    cases o with
    | none => exact ha
    | some i => exact hf i
  have fmt := opt rm.dip.fmtSlot rm rm.applyFormat h fun i => hc _ (.format i) h
  have src := opt rm.dip.srcSlot _ _ fmt fun m => hc _ (.source m) fmt
  exact he _ (opt rm.dip.bankSlot _ _ src fun n => hc _ (.bank n) src)

theorem RoomRec.signalsOk_applySlots {rm : RoomRec} (h : rm.signalsOk) : rm.applySlots.signalsOk :=
  RoomRec.applySlots_keeps h (fun _ c hx => RoomRec.signalsOk_applyChange hx c) fun _ hx => RoomRec.signalsOk_congr hx rfl rfl rfl

theorem RoomRec.signalsOk_endDip {rm : RoomRec} (h : rm.signalsOk) : rm.endDip.signalsOk := by
  unfold RoomRec.endDip
  split
  · exact h
  · exact RoomRec.signalsOk_congr (RoomRec.signalsOk_applySlots h) rfl rfl rfl

theorem RoomRec.signalsOk_bottom {rm : RoomRec} (h : rm.signalsOk) : rm.bottom.signalsOk := by
  have applied := RoomRec.signalsOk_applySlots h
  unfold RoomRec.bottom
  dsimp only
  split
  · exact RoomRec.signalsOk_congr (RoomRec.signalsOk_early applied Early.fromZero fun _ => .inr rfl) rfl rfl rfl
  · exact RoomRec.signalsOk_congr applied rfl rfl rfl

theorem RoomRec.signalsOk_afterTransit {rm : RoomRec} {f : RoomRec → RoomRec} (h : rm.signalsOk)
    (hf : ∀ x : RoomRec, x.signalsOk → (f x).signalsOk) : (rm.afterTransit f).signalsOk :=
  RoomRec.afterTransit_keeps h RoomRec.signalsOk_endDip hf fun _ hx => RoomRec.signalsOk_congr hx rfl rfl rfl

theorem RoomRec.loaded_decode {rm0 rm : RoomRec} (h : (∃ i e, rm = rm0.writeEntry i e) ∨
    (∃ n c body first count, rm = rm0.setBank n ((rm0.bank n).load c body first count)) ∨
    (∃ n, rm = rm0.setBank n .cleared) ∨ ∃ n, rm = rm0.setBank n (rm0.bank rm0.bankInService)) :
    rm.decode = rm0.decode ∨ rm.decode = .zero := by
  rcases h with ⟨i, e, rfl⟩ | ⟨n, c, body, first, count, rfl⟩ | ⟨n, rfl⟩ | ⟨n, rfl⟩
  · by_cases k : rm0.activeFormat = i ∧ rm0.formats[i].mode = .discrete ∧ e.mode = .mx4
    · exact .inr (if_pos k)
    · exact .inl (if_neg k)
  all_goals exact .inl (by cases n <;> rfl)

theorem isSample_zero : isSample 0 := by
  unfold isSample
  decide

theorem State.laneValue_isSample {s : State} (h : ∀ l : Lane, isSample s.lanes[l].hold) (ws : Vector Word 256) (l : Option Lane) :
    isSample (s.laneValue ws l) := by
  unfold State.laneValue
  split
  · split
    · exact laneSample_isSample _
    · exact h _
  · exact isSample_zero

/-- A room without sound: every programme channel and the decode state at 0, and no chains put ahead. -/
theorem RoomRec.signalsOk_silent {rm : RoomRec} (hp : rm.prog = Vector.replicate 16 0) (hd : rm.decode = .zero) (ha : rm.ahead = none) :
    rm.signalsOk := by
  refine ⟨fun c => ?_, hd ▸ DecodeState.ok_zero, fun e he => ?_⟩
  · rw [hp, Fin.getElem_fin, Vector.getElem_replicate]
    exact isSample_zero
  · rw [ha] at he
    cases he

/-- The hold values of the lanes are samples (R34). -/
def State.lanesOk (s : State) : Prop := ∀ l : Lane, isSample s.lanes[l].hold

theorem State.lanesOk_congr {s t : State} (h : s.lanesOk) (e : t.lanes = s.lanes) : t.lanesOk := by
  unfold State.lanesOk
  rw [e]
  exact h

theorem LaneRec.take_hold_isSample {x : LaneRec} (h : isSample x.hold) (used : Bool) (w : Word) : isSample (x.take used w).hold := by
  unfold LaneRec.take
  dsimp only
  split
  · exact laneSample_isSample w
  · exact h

theorem State.setLaw_lanes (s : State) (law : Vector Nat 101) : ({ s with law := law } : State).lanes = s.lanes := rfl

theorem State.loadFaderLaw_lanes (s : State) (body : List Payload) : (s.loadFaderLaw body).1.lanes = s.lanes := by
  rw [State.loadFaderLaw]
  split
  · rfl
  · exact State.setLaw_lanes s _

theorem State.lanesOk_restartBegin (s : State) : s.restartBegin.lanesOk := by
  intro l
  have zero : s.restartBegin.lanes[l].hold = 0 := by
    delta State.restartBegin
    simp only [Fin.getElem_fin, Vector.getElem_ofFn]
  rw [zero]
  exact isSample_zero

theorem State.lanesOk_takeLanes {s : State} (h : s.lanesOk) (ws : Vector Word 256) (later : List Room) : (s.takeLanes ws later).lanesOk := by
  intro l
  have lane : (s.takeLanes ws later).lanes[l] = s.lanes[l].take (s.usedBut later l) ws[l] := by
    delta State.takeLanes
    simp only [Fin.getElem_fin, Vector.getElem_ofFn]
  rw [lane]
  exact LaneRec.take_hold_isSample (h l) _ _

theorem Move.lanesOk {s t : State} (hm : Move s t) (h : s.lanesOk) : t.lanesOk := by
  have congr {u : State} (e : u.lanes = s.lanes) : u.lanesOk := State.lanesOk_congr h e
  have transit (r : Room) (own : List NoticeBody) (f : RoomRec → RoomRec) : (s.transit r own f).lanesOk :=
    congr (State.onlyRooms_lanes (State.onlyRooms_transit s r own f))
  cases hm
  case quiet part _ => exact fun l => by rw [part.holds]; exact h l
  case lanes ws later => exact State.lanesOk_takeLanes h ws later
  case newBlock lanes n hl =>
    intro l
    have hold : lanes[l].hold = s.lanes[l].hold := hl l
    show isSample lanes[l].hold
    rw [hold]
    exact h l
  case restart => exact State.lanesOk_restartBegin s
  case law body => exact congr (State.loadFaderLaw_lanes s body)
  case off r => exact congr (State.onlyRooms_lanes (State.onlyRooms_enterOff s r))
  case halt r _ => exact congr (State.onlyRooms_lanes (State.onlyRooms_enterHalted s r))
  case park | listen | prove | goLive | relive | cancel | proofEnd | loss | found => exact transit _ _ _
  case handOn r c => exact congr (State.onlyRooms_lanes (State.onlyRooms_handOn s r c))
  case bottom r _ => exact congr (State.onlyRooms_lanes (State.onlyRooms_dipBottom s r))
  case raise r x p n _ _ => exact congr (State.onlyRooms_lanes (State.onlyRooms_raiseCond s r x p n))
  case clear r x _ => exact congr (State.onlyRooms_lanes (State.onlyRooms_clearCond s r x))
  case ack r x n m => exact congr (State.onlyRooms_lanes (State.onlyRooms_ackOne s r x n m))
  all_goals exact congr rfl

theorem Move.signalsOk {s t : State} (hm : Move s t) (h : s.signalsOk) : t.signalsOk := by
  obtain ⟨hlanes, hroom⟩ := h
  change ∀ q, (s.room q).signalsOk at hroom
  refine ⟨hm.lanesOk hlanes, show ∀ q, (t.room q).signalsOk from ?_⟩
  have change {r : Room} {f : RoomRec → RoomRec} (hf : (f (s.room r)).signalsOk) (q : Room) : ((s.modRoom r f).room q).signalsOk :=
    State.forall_modRoom (Q := fun _ rm => rm.signalsOk) hroom hf q
  have keep {r : Room} {f : RoomRec → RoomRec} (hp : (f (s.room r)).prog = (s.room r).prog)
      (hd : (f (s.room r)).decode = (s.room r).decode) (ha : (f (s.room r)).ahead = (s.room r).ahead) (q : Room) :
      ((s.modRoom r f).room q).signalsOk := change (RoomRec.signalsOk_congr (hroom r) hp hd ha) q
  have transit {r : Room} {own : List NoticeBody} {f : RoomRec → RoomRec} (hf : ∀ x : RoomRec, x.signalsOk → (f x).signalsOk)
      (q : Room) : ((s.transit r own f).room q).signalsOk :=
    State.forall_transit (Q := fun _ rm => rm.signalsOk) hroom (RoomRec.signalsOk_afterTransit (hroom r) hf) q
  have every {f : RoomRec → RoomRec} (hf : ∀ x : RoomRec, x.signalsOk → (f x).signalsOk) (q : Room) : ((s.mapRooms f).room q).signalsOk :=
    State.forall_mapRooms (Q := fun _ rm => rm.signalsOk) (fun q => hf _ (hroom q)) q
  have still {t u : State} (h : ∀ q, (u.room q).signalsOk) (hr : t.rooms = u.rooms) (q : Room) : (t.room q).signalsOk :=
    State.forall_congr (Q := fun _ rm => rm.signalsOk) h hr q
  have put {rm : RoomRec} (h : rm.signalsOk) (x : CondId) (v : Cond) : (rm.putCond x v).signalsOk := by
    cases x <;> exact h
  cases hm
  case quiet part rooms =>
    intro r
    obtain ⟨hp, hd, ha⟩ := hroom r
    refine ⟨by rw [(rooms r).prog]; exact hp, by rw [(rooms r).decode]; exact hd, fun e he => ?_⟩
    rcases (rooms r).ahead e he with k | k
    · rw [k]
      exact hd
    · exact ha e k
  case off r =>
    exact still (transit (r := r) (own := []) (f := RoomRec.toOff) fun _ hx => RoomRec.signalsOk_congr hx rfl rfl rfl) rfl
  case halt r _ =>
    exact still (transit (r := r) (own := []) (f := RoomRec.toHalted) fun _ hx => RoomRec.signalsOk_congr hx rfl rfl rfl) rfl
  case goLive r _ _ =>
    exact transit fun x hx => RoomRec.signalsOk_zeroDecode (RoomRec.signalsOk_zeroHistory
      (RoomRec.signalsOk_congr (b := x.toLive) hx rfl rfl rfl))
  case park | relive | cancel | proofEnd | loss | found => exact transit fun _ hx => RoomRec.signalsOk_congr hx rfl rfl rfl
  case listen r _ _ =>
    refine transit fun x hx => ?_
    unfold RoomRec.toSettling
    dsimp only
    split <;> exact RoomRec.signalsOk_congr hx rfl rfl rfl
  case prove r own _ =>
    refine transit fun x hx => ?_
    unfold RoomRec.toProve
    dsimp only
    split <;> exact RoomRec.signalsOk_congr hx rfl rfl rfl
  case handOn r c =>
    exact State.forall_handOn (Q := fun _ rm => rm.signalsOk) hroom (fun _ => hroom r) fun _ => RoomRec.signalsOk_applyChange (hroom r) c
  case bottom r _ => exact State.forall_dipBottom (Q := fun _ rm => rm.signalsOk) hroom (RoomRec.signalsOk_bottom (hroom r))
  case law body => exact fun q => by rw [State.room_loadFaderLaw]; exact hroom q
  case load r rm _ hw =>
    obtain ⟨hp, hd, ha⟩ := hroom r
    refine State.forall_commitLoad (Q := fun _ rm => rm.signalsOk) hroom ⟨?_, ?_, ?_⟩
    · rw [RoomRec.loaded_eq hw]
      exact hp
    · show rm.decode.ok
      rcases RoomRec.loaded_decode hw with k | k <;> rw [k]
      · exact hd
      · exact DecodeState.ok_zero
    · rw [RoomRec.loaded_eq hw]
      exact ha
  case trims r n trim =>
    rw [show (fun rm : RoomRec => rm.setBank n _) = _ from funext fun rm => RoomRec.setBank_eq rm n _]
    exact keep rfl rfl rfl
  case raise r x p n _ _ => exact State.forall_raiseCond (Q := fun _ rm => rm.signalsOk) hroom fun u _ => put (hroom r) x u
  case clear r x _ => exact change (f := fun rm => rm.putCond x .quiet) (put (hroom r) x _)
  case ack r x n m => exact State.forall_ackOne (Q := fun _ rm => rm.signalsOk) hroom (put (hroom r) x _)
  case judged r x truth h => exact change (put (hroom r) x _)
  case values ws which =>
    refine State.forall_takeValues (Q := fun _ rm => rm.signalsOk) hroom fun q => ⟨fun c => ?_, (hroom q).2⟩
    rw [Fin.getElem_fin, Vector.getElem_ofFn]
    exact State.laneValue_isSample hlanes ws _
  case chains which =>
    exact State.forall_stepDecode (Q := fun _ rm => rm.signalsOk) hroom fun q => RoomRec.signalsOk_decodeAfter (hroom q) _
  case tick => exact still (every (f := RoomRec.tick s.supply) fun _ hx => RoomRec.signalsOk_congr hx rfl rfl rfl) rfl
  case asserted =>
    exact still (every (f := fun rm => { rm.cursorToBase with timers := Vector.ofFn fun i => rm.timers[i].freeze })
      fun _ hx => RoomRec.signalsOk_congr hx rfl rfl rfl) rfl
  case placed => exact every fun _ hx => RoomRec.signalsOk_congr hx rfl rfl rfl
  case newBlock => exact still (every (f := RoomRec.newBlock) fun _ hx => RoomRec.signalsOk_congr hx rfl rfl rfl) rfl
  case restart =>
    exact still (every (f := RoomRec.restart s.law) fun _ _ => RoomRec.signalsOk_silent rfl rfl rfl) rfl
  case lanes ws later =>
    delta State.takeLanes
    exact still hroom rfl
  case released | storeReady | restartDone | input | ended => exact still hroom rfl
  case absence | record | settled | ramp | onAir | setRoom | gain | ascent | alarmEntry | draftClear | draftAppend | commit | rewind |
    timecode | advance | jump => exact keep rfl rfl rfl

/-! ### Every step -/

theorem Turn.factorsOk {s t : State} (ht : Turn s t) (h : s.factorsOk) : t.factorsOk := by
  cases ht with
  | move hm => exact hm.factorsOk h
  | desk m out => exact h
  | close _ => exact h

theorem Turn.signalsOk {s t : State} (ht : Turn s t) (h : s.signalsOk) : t.signalsOk := by
  cases ht with
  | move hm => exact hm.signalsOk h
  | desk m out => exact h
  | close _ => exact h

theorem State.lanesOk_fullReset (s : State) (line : Bool) : (s.fullReset line).lanesOk := by
  intro l
  have zero : (s.fullReset line).lanes[l].hold = 0 := congrArg LaneRec.hold (Vector.getElem_replicate _)
  rw [zero]
  exact isSample_zero

theorem State.signalsOk_fullReset (s : State) (line : Bool) : (s.fullReset line).signalsOk := by
  refine ⟨s.lanesOk_fullReset line, show ∀ q, ((s.fullReset line).room q).signalsOk from fun q => ?_⟩
  rw [State.room_fullReset]
  exact RoomRec.signalsOk_silent rfl rfl rfl

theorem State.factorsOk_fullReset (s : State) (line : Bool) : (s.fullReset line).factorsOk := by
  refine ⟨State.factorsInRange_reset.1, show ∀ q, ((s.fullReset line).room q).factorsOk from fun q => ?_⟩
  rw [State.room_fullReset]
  exact ⟨Gain.ok_of_still (by decide) rfl, Dip.ok_reset, fun _ => rfl⟩

/-- Settles O56: every move keeps each room's factors and signals, and what it sets them to is in range. -/
theorem factorsKept : Obligations.FactorsKept := fun _ _ hs =>
  ⟨step_keeps (fun _ _ => id) State.factorsOk_fullReset (fun _ _ => Turn.factorsOk) hs,
    step_keeps (fun _ _ => id) State.signalsOk_fullReset (fun _ _ => Turn.signalsOk) hs⟩

end Sys2Proof.Machine
end

section
/-! Booth cues (08): the laws of cue lists and cursors, and every step keeps the cue store and the cursors in order (O57). -/

namespace Sys2Proof.Machine

/-! ### Positions of AT cues (R148, R150 to R152) -/

theorem firstAt_le (p : Nat → Bool) : ∀ l : List Cue, firstAt p l ≤ l.length
  | [] => Nat.le_refl _
  | c :: cs => by
    have ih := firstAt_le p cs
    unfold firstAt
    split
    · split
      · exact Nat.zero_le _
      · exact Nat.succ_le_succ ih
    · exact Nat.succ_le_succ ih

/-- No AT cue before the first that passes the test does. -/
theorem firstAt_before {p : Nat → Bool} : ∀ {l : List Cue} {i : Nat} {c : Cue} {f : Nat}, i < firstAt p l → l[i]? = some c →
    c.frame? = some f → p f = false
  | [], i, c, f, hi, _, _ => absurd hi (Nat.not_lt_zero i)
  | x :: xs, i, c, f, hi, hc, hf => by
    unfold firstAt at hi
    cases i with
    | zero =>
      cases hc
      rw [hf] at hi
      by_contra hp
      simp [Bool.eq_true_of_not_eq_false hp] at hi
    | succ j =>
      refine firstAt_before (l := xs) (i := j) ?_ hc hf
      split at hi
      · split at hi <;> omega
      · omega

/-- The position of the first AT cue that passes the test is that of such a cue, or the end. -/
theorem firstAt_at (p : Nat → Bool) : ∀ l : List Cue,
    firstAt p l = l.length ∨ ∃ c f, l[firstAt p l]? = some c ∧ c.frame? = some f ∧ p f = true
  | [] => .inl rfl
  | x :: xs => by
    have later : firstAt p xs + 1 = (x :: xs).length ∨
        ∃ c f, (x :: xs)[firstAt p xs + 1]? = some c ∧ c.frame? = some f ∧ p f = true := by
      rcases firstAt_at p xs with h | ⟨c, f, hc, hf⟩
      · exact .inl (congrArg Nat.succ h)
      · exact .inr ⟨c, f, hc, hf⟩
    unfold firstAt
    split
    · rename_i f hf
      split
      · exact .inr ⟨x, f, rfl, hf, ‹_›⟩
      · exact later
    · exact later

theorem cursorAt_firstAt (p : Nat → Bool) (l : List Cue) : cursorAt l (firstAt p l) := by
  rcases firstAt_at p l with h | ⟨c, f, hc, hf, -⟩
  · exact .inl h
  · exact .inr ⟨c, hc, by rw [hf]; rfl⟩

theorem cursorAt_baseOf (l : List Cue) : cursorAt l (baseOf l) := cursorAt_firstAt _ l

/-- Before the base no cue is an AT cue (R150). -/
theorem baseOf_before {l : List Cue} {i : Nat} {c : Cue} (hi : i < baseOf l) (hc : l[i]? = some c) : c.frame? = none := by
  cases hf : c.frame? with
  | none => rfl
  | some f => cases firstAt_before hi hc hf

theorem cursorAt_firstAtFrom (p : Nat → Bool) (n : Nat) (l : List Cue) : cursorAt l (firstAtFrom p n l) := by
  unfold firstAtFrom
  rcases le_total l.length n with h | h
  · left
    rw [List.drop_eq_nil_of_le h, Nat.min_eq_left h]
    rfl
  · rw [Nat.min_eq_right h]
    rcases cursorAt_firstAt p (l.drop n) with e | ⟨c, hc, hf⟩
    · left
      rw [e, List.length_drop]
      omega
    · exact .inr ⟨c, by rwa [List.getElem?_drop] at hc, hf⟩

/-- From a position on, no AT cue before the first that passes the test does. -/
theorem firstAtFrom_before {p : Nat → Bool} {n i : Nat} {l : List Cue} {c : Cue} {f : Nat} (hn : n ≤ i) (hi : i < firstAtFrom p n l)
    (hc : l[i]? = some c) (hf : c.frame? = some f) : p f = false := by
  obtain ⟨small, -⟩ := List.getElem?_eq_some_iff.1 hc
  unfold firstAtFrom at hi
  rw [Nat.min_eq_right (by omega)] at hi
  refine firstAt_before (l := l.drop n) (i := i - n) (by omega) ?_ hf
  rw [List.getElem?_drop, Nat.add_sub_cancel' hn]
  exact hc

/-! ### Numbers and frames in order (R142, R143, R146, R147) -/

/-- A cue that words give has a number in range (R143, R146). -/
theorem Cue.number_of_words {w : List Payload} {c : Cue} (h : Cue.ofWords w = some c) : 1 ≤ c.number ∧ c.number ≤ 9999 := by
  unfold Cue.ofWords at h
  split at h
  · split at h
    · rename_i hn
      simp only [Option.bind_eq_some_iff, Option.map_eq_some_iff] at h
      obtain ⟨gate, -, t, -, as, -, rfl⟩ := h
      exact ⟨hn.1, hn.2.1⟩
    · cases h
  · cases h

theorem firstDisorder_cons (last : Option Nat) (i : Nat) (c : Cue) (cs : List Cue) :
    firstDisorder last i (c :: cs) =
      if last.any (fun n => decide (c.number ≤ n)) = true then some i else firstDisorder (some c.number) (i + 1) cs := by
  cases last <;> rfl

/-- An entry above the last of a list in order is in order behind it (R143). -/
theorem pairwise_concat {l : List Cue} {c : Cue} (hl : (l.map (·.number)).Pairwise (· < ·))
    (hc : ¬(lastNumber l).any (fun n => decide (c.number ≤ n)) = true) : ((l ++ [c]).map (·.number)).Pairwise (· < ·) := by
  rw [List.map_append]
  refine List.pairwise_append.2 ⟨hl, List.pairwise_singleton _ _, fun n hn m hm => ?_⟩
  rw [List.mem_singleton.1 hm]
  rcases List.eq_nil_or_concat l with rfl | ⟨k, a, rfl⟩
  · cases hn
  · have above : a.number < c.number := by simpa [lastNumber] using hc
    simp only [List.concat_eq_append, List.map_append, List.mem_append, List.map_cons, List.map_nil, List.mem_singleton] at hl hn
    rcases hn with hn | rfl
    · exact ((List.pairwise_append.1 hl).2.2 n hn a.number (List.mem_singleton_self _)).trans above
    · exact above

/-- Entries that R146 finds in order are so behind the draft they join. -/
theorem pairwise_of_firstDisorder : ∀ {l cues : List Cue} {i : Nat}, (l.map (·.number)).Pairwise (· < ·) →
    firstDisorder (lastNumber l) i cues = none → ((l ++ cues).map (·.number)).Pairwise (· < ·)
  | l, [], i, hl, _ => by rwa [List.append_nil]
  | l, c :: cs, i, hl, h => by
    rw [firstDisorder_cons] at h
    split at h
    · cases h
    · rename_i hc
      have last : lastNumber (l ++ [c]) = some c.number := by simp [lastNumber]
      rw [List.append_cons]
      exact pairwise_of_firstDisorder (pairwise_concat hl hc) (by rw [last]; exact h)

/-- The frames of AT entries that R147 finds in order do not fall, from a bound on. -/
theorem pairwise_of_frameDisorder : ∀ {l : List Cue} {hi : Nat}, frameDisorder hi l = none →
    (l.filterMap Cue.frame?).Pairwise (· ≤ ·) ∧ ∀ f ∈ l.filterMap Cue.frame?, hi ≤ f
  | [], hi, _ => ⟨.nil, nofun⟩
  | c :: cs, hi, h => by
    unfold frameDisorder at h
    split at h
    · rename_i f hf
      split at h
      · cases h
      · rename_i hle
        obtain ⟨hp, hb⟩ := pairwise_of_frameDisorder h
        rw [List.filterMap_cons_some hf]
        refine ⟨List.pairwise_cons.2 ⟨fun g hg => (le_max_right _ _).trans (hb g hg), hp⟩, fun g hg => ?_⟩
        rcases List.mem_cons.1 hg with rfl | hg
        · omega
        · exact (le_max_left _ _).trans (hb g hg)
    · rename_i hf
      rw [List.filterMap_cons_none hf]
      exact pairwise_of_frameDisorder h

/-! ### The cue store (R142, R147) -/

/-- A room's list and draft are in order, and its cursor is at an AT cue or at the end (R142, R147, R150). -/
def RoomRec.cuesOk (rm : RoomRec) : Prop :=
  cuesOrdered rm.list ∧ cuesOrdered rm.draft ∧ (rm.list.filterMap Cue.frame?).Pairwise (· ≤ ·) ∧ cursorAt rm.list rm.cursor

/-- The cues that a room holds in the store (R142). -/
def RoomRec.cueCount (rm : RoomRec) : Nat := rm.list.length + rm.draft.length

theorem State.cueUsed_modRoom (s : State) (r : Room) (f : RoomRec → RoomRec) :
    (s.modRoom r f).cueUsed + (s.room r).cueCount = s.cueUsed + (f (s.room r)).cueCount :=
  s.sum_modRoom RoomRec.cueCount r f

/-- The list and the draft stay, and the cursor stays, or is placed at an AT cue or at the end. -/
structure RoomRec.KeepsStore (a b : RoomRec) : Prop where
  list : b.list = a.list
  draft : b.draft = a.draft
  cursor : b.cursor = a.cursor ∨ cursorAt a.list b.cursor

theorem RoomRec.KeepsStore.refl (a : RoomRec) : a.KeepsStore a := ⟨rfl, rfl, .inl rfl⟩

theorem RoomRec.KeepsStore.trans {a b c : RoomRec} (h : a.KeepsStore b) (k : b.KeepsStore c) : a.KeepsStore c := by
  refine ⟨k.list.trans h.list, k.draft.trans h.draft, ?_⟩
  rcases k.cursor with e | e
  · rw [e]
    exact h.cursor
  · rw [h.list] at e
    exact .inr e

theorem RoomRec.KeepsStore.cuesOk {a b : RoomRec} (h : a.KeepsStore b) (ha : a.cuesOk) : b.cuesOk := by
  obtain ⟨hl, hd, hf, hc⟩ := ha
  unfold RoomRec.cuesOk
  rw [h.list, h.draft]
  refine ⟨hl, hd, hf, ?_⟩
  rcases h.cursor with e | e
  · rw [e]
    exact hc
  · exact e

theorem RoomRec.placement_at (rm : RoomRec) : cursorAt rm.list rm.placement := by
  unfold RoomRec.placement
  split
  · exact cursorAt_baseOf _
  · split
    · exact cursorAt_baseOf _
    · exact cursorAt_firstAt _ _

theorem RoomRec.keepsStore_applyChange (rm : RoomRec) (c : DipChange) : rm.KeepsStore (rm.applyChange c) := by
  cases c with
  | format i =>
    rw [RoomRec.applyChange, RoomRec.applyFormat_eq]
    exact ⟨rfl, rfl, .inl rfl⟩
  | source m => exact ⟨rfl, rfl, .inl rfl⟩
  | bank n => exact ⟨rfl, rfl, .inl rfl⟩

theorem RoomRec.keepsStore_applySlots (rm : RoomRec) : rm.KeepsStore rm.applySlots :=
  RoomRec.applySlots_keeps (.refl rm) (fun x c hx => hx.trans (x.keepsStore_applyChange c)) fun _ hx => hx.trans ⟨rfl, rfl, .inl rfl⟩

theorem RoomRec.keepsStore_endDip (rm : RoomRec) : rm.KeepsStore rm.endDip := by
  unfold RoomRec.endDip
  split
  · exact .refl rm
  · exact rm.keepsStore_applySlots.trans ⟨rfl, rfl, .inl rfl⟩

theorem RoomRec.keepsStore_bottom (rm : RoomRec) : rm.KeepsStore rm.bottom := rm.keepsStore_applySlots.trans ⟨rfl, rfl, .inl rfl⟩

theorem RoomRec.keepsStore_afterTransit {rm : RoomRec} {f : RoomRec → RoomRec} (hf : ∀ x : RoomRec, x.KeepsStore (f x)) :
    rm.KeepsStore (rm.afterTransit f) :=
  RoomRec.afterTransit_keeps (P := rm.KeepsStore) (.refl rm) (fun _ => rm.keepsStore_endDip) (fun x hx => hx.trans (hf x))
    fun _ hx => hx.trans ⟨rfl, rfl, .inl rfl⟩

theorem RoomRec.keepsStore_putCond (rm : RoomRec) (x : CondId) (v : Cond) : rm.KeepsStore (rm.putCond x v) := by
  cases x <;> exact ⟨rfl, rfl, .inl rfl⟩

/-- The moves that change a list or a draft. -/
inductive StoreMove (s : State) : State → Prop where
  | clear (r : Room) : StoreMove s (s.modRoom r fun rm => { rm with draft := [] })
  | append (r : Room) (cues : List Cue) (ho : firstDisorder (lastNumber (s.room r).draft) 0 cues = none)
      (hn : ∀ c ∈ cues, ∃ w, Cue.ofWords w = some c) (hl : (s.room r).draft.length + cues.length ≤ 128)
      (hu : s.cueUsed + cues.length ≤ 512) : StoreMove s (s.modRoom r fun rm => { rm with draft := rm.draft ++ cues })
  | commit (r : Room) (h : frameDisorder 0 (s.room r).draft = none) : StoreMove s (s.modRoom r RoomRec.commitDraft)

/-- A move keeps every list and draft, or is one of the three on a draft. -/
theorem Move.store {s t : State} (hm : Move s t) : (∀ r, (s.room r).KeepsStore (t.room r)) ∨ StoreMove s t := by
  have refl (q : Room) : (s.room q).KeepsStore (s.room q) := .refl _
  have change {r : Room} {f : RoomRec → RoomRec} (hf : (s.room r).KeepsStore (f (s.room r))) (q : Room) :
      (s.room q).KeepsStore ((s.modRoom r f).room q) :=
    State.forall_modRoom (Q := fun q rm => (s.room q).KeepsStore rm) refl hf q
  have transit {r : Room} {own : List NoticeBody} {f : RoomRec → RoomRec} (hf : ∀ x : RoomRec, x.KeepsStore (f x)) (q : Room) :
      (s.room q).KeepsStore ((s.transit r own f).room q) :=
    State.forall_transit (Q := fun q rm => (s.room q).KeepsStore rm) refl (RoomRec.keepsStore_afterTransit hf) q
  have every {f : RoomRec → RoomRec} (hf : ∀ x : RoomRec, x.KeepsStore (f x)) (q : Room) :
      (s.room q).KeepsStore ((s.mapRooms f).room q) :=
    State.forall_mapRooms (Q := fun q rm => (s.room q).KeepsStore rm) (fun q => hf _) q
  have still {t u : State} (h : ∀ q, (s.room q).KeepsStore (u.room q)) (hr : t.rooms = u.rooms) (q : Room) :
      (s.room q).KeepsStore (t.room q) := State.forall_congr (Q := fun q rm => (s.room q).KeepsStore rm) h hr q
  have base (rm : RoomRec) : cursorAt rm.list (baseOf rm.list) := cursorAt_baseOf _
  cases hm
  case draftClear r => exact .inr (.clear r)
  case draftAppend r cues ho hn hl hu => exact .inr (.append r cues ho hn hl hu)
  case commit r h _ => exact .inr (.commit r h)
  all_goals left
  case quiet part rooms => exact fun r => ⟨(rooms r).list, (rooms r).draft, .inl (rooms r).cursor⟩
  case off r => exact still (transit (r := r) (own := []) (f := RoomRec.toOff) fun x => ⟨rfl, rfl, .inr (base x)⟩) rfl
  case halt r _ => exact still (transit (r := r) (own := []) (f := RoomRec.toHalted) fun x => ⟨rfl, rfl, .inl rfl⟩) rfl
  case park | goLive | relive | cancel | proofEnd | loss | found => exact transit fun _ => ⟨rfl, rfl, .inl rfl⟩
  case listen r _ _ =>
    refine transit fun x => ?_
    unfold RoomRec.toSettling
    dsimp only
    split
    · exact ⟨rfl, rfl, .inr (RoomRec.placement_at _)⟩
    · exact ⟨rfl, rfl, .inl rfl⟩
  case prove r own _ =>
    refine transit fun x => ?_
    unfold RoomRec.toProve
    dsimp only
    split <;> exact ⟨rfl, rfl, .inl rfl⟩
  case handOn r c =>
    exact State.forall_handOn (Q := fun q rm => (s.room q).KeepsStore rm) refl (fun _ => ⟨rfl, rfl, .inl rfl⟩) fun _ =>
      RoomRec.keepsStore_applyChange _ c
  case bottom r _ => exact State.forall_dipBottom (Q := fun q rm => (s.room q).KeepsStore rm) refl (RoomRec.keepsStore_bottom _)
  case law body => exact fun q => by rw [State.room_loadFaderLaw]; exact refl q
  case load r rm _ hw =>
    rw [RoomRec.loaded_eq hw]
    exact State.forall_commitLoad (Q := fun q rm => (s.room q).KeepsStore rm) refl ⟨rfl, rfl, .inl rfl⟩
  case trims r n trim =>
    rw [show (fun rm : RoomRec => rm.setBank n _) = _ from funext fun rm => RoomRec.setBank_eq rm n _]
    exact change ⟨rfl, rfl, .inl rfl⟩
  case raise r x p n _ _ =>
    exact State.forall_raiseCond (Q := fun q rm => (s.room q).KeepsStore rm) refl fun u _ =>
      (RoomRec.keepsStore_putCond _ x u).trans ⟨rfl, rfl, .inl rfl⟩
  case clear r x _ => exact change (f := fun rm => rm.putCond x .quiet) (RoomRec.keepsStore_putCond _ x _)
  case ack r x n m => exact State.forall_ackOne (Q := fun q rm => (s.room q).KeepsStore rm) refl (RoomRec.keepsStore_putCond _ x _)
  case judged r x truth h => exact change (RoomRec.keepsStore_putCond _ x _)
  case values ws which => exact State.forall_takeValues (Q := fun q rm => (s.room q).KeepsStore rm) refl fun _ => ⟨rfl, rfl, .inl rfl⟩
  case chains which => exact State.forall_stepDecode (Q := fun q rm => (s.room q).KeepsStore rm) refl fun _ => ⟨rfl, rfl, .inl rfl⟩
  case tick => exact still (every (f := RoomRec.tick s.supply) fun _ => ⟨rfl, rfl, .inl rfl⟩) rfl
  case asserted =>
    exact still (every (f := fun rm => { rm.cursorToBase with timers := Vector.ofFn fun i => rm.timers[i].freeze })
      fun x => ⟨rfl, rfl, .inr (base x)⟩) rfl
  case placed => exact every fun x => ⟨rfl, rfl, .inr x.placement_at⟩
  case newBlock => exact still (every (f := RoomRec.newBlock) fun _ => ⟨rfl, rfl, .inl rfl⟩) rfl
  case restart => exact still (every (f := RoomRec.restart s.law) fun x => ⟨rfl, rfl, .inr (base x)⟩) rfl
  case lanes ws later =>
    delta State.takeLanes
    exact still refl rfl
  case released | storeReady | restartDone | input | ended => exact still refl rfl
  case rewind r => exact change ⟨rfl, rfl, .inr (base _)⟩
  case advance r t _ _ => exact change ⟨rfl, rfl, .inr (cursorAt_firstAtFrom _ _ _)⟩
  case jump r new t _ _ => exact change ⟨rfl, rfl, .inr (cursorAt_firstAtFrom _ _ _)⟩
  case absence | record | settled | ramp | onAir | setRoom | gain | ascent | alarmEntry | timecode => exact change ⟨rfl, rfl, .inl rfl⟩

theorem cuesOrdered_nil : cuesOrdered [] := ⟨Nat.zero_le _, .nil, nofun⟩

theorem Move.cuesOk {s t : State} (hm : Move s t) (h : s.cuesOk) : t.cuesOk := by
  obtain ⟨hu, hroom⟩ := h
  change ∀ q, (s.room q).cuesOk at hroom
  have change {r : Room} {f : RoomRec → RoomRec} (hf : (f (s.room r)).cuesOk) (q : Room) : ((s.modRoom r f).room q).cuesOk :=
    State.forall_modRoom (Q := fun _ rm => rm.cuesOk) hroom hf q
  rcases hm.store with rooms | hs
  · have used : t.cueUsed = s.cueUsed := by simp only [State.cueUsed, (rooms _).list, (rooms _).draft]
    exact ⟨used ▸ hu, fun q => (rooms q).cuesOk (hroom q)⟩
  · cases hs with
    | clear r =>
      have used := s.cueUsed_modRoom r fun rm => { rm with draft := [] }
      obtain ⟨hl, -, hf, hc⟩ := hroom r
      refine ⟨?_, change ⟨hl, cuesOrdered_nil, hf, hc⟩⟩
      simp only [RoomRec.cueCount, List.length_nil] at used
      omega
    | append r cues ho hn hlen hroomy =>
      have used := s.cueUsed_modRoom r fun rm => { rm with draft := rm.draft ++ cues }
      obtain ⟨hl, ⟨hd1, hd2, hd3⟩, hf, hc⟩ := hroom r
      refine ⟨?_, change ⟨hl, ⟨?_, pairwise_of_firstDisorder hd2 ho, fun c hin => ?_⟩, hf, hc⟩⟩
      · simp only [RoomRec.cueCount, List.length_append] at used
        omega
      · rw [List.length_append]
        exact hlen
      · rcases List.mem_append.1 hin with hin | hin
        · exact hd3 c hin
        · obtain ⟨w, hw⟩ := hn c hin
          exact Cue.number_of_words hw
    | commit r hframes =>
      have used := s.cueUsed_modRoom r RoomRec.commitDraft
      obtain ⟨-, hd, -, -⟩ := hroom r
      refine ⟨?_, change ⟨hd, cuesOrdered_nil, (pairwise_of_frameDisorder hframes).1, RoomRec.placement_at _⟩⟩
      simp only [RoomRec.cueCount, RoomRec.commitDraft, RoomRec.placeCursor, List.length_nil] at used
      omega

/-! ### The cursors (R148, R150, R154, R171) -/

/-- Every AT cue before a position has a frame up to the last frame (R150). -/
def passed (l : List Cue) (n : Nat) (last : Option Nat) : Prop :=
  ∀ i < n, ∀ c f, l[i]? = some c → c.frame? = some f → ∃ t, last = some t ∧ f ≤ t

theorem passed_baseOf (l : List Cue) (last : Option Nat) : passed l (baseOf l) last := by
  intro i hi c f hc hf
  rw [baseOf_before hi hc] at hf
  cases hf

theorem passed_firstAt (l : List Cue) (t : Nat) : passed l (firstAt (fun f => decide (t < f)) l) (some t) := fun _ hi _ _ hc hf =>
  ⟨t, rfl, Nat.le_of_not_lt (of_decide_eq_false (firstAt_before hi hc hf))⟩

/-- A run from a position that has been passed passes all that it fires (R151, R152). -/
theorem passed_firstAtFrom {l : List Cue} {n t : Nat} (h : passed l n (some t)) :
    passed l (firstAtFrom (fun f => decide (t < f)) n l) (some t) := by
  intro i hi c f hc hf
  rcases Nat.lt_or_ge i n with hn | hn
  · exact h i hn c f hc hf
  · exact ⟨t, rfl, Nat.le_of_not_lt (of_decide_eq_false (firstAtFrom_before hn hi hc hf))⟩

theorem passed_mono {l : List Cue} {n f t : Nat} (h : passed l n (some f)) (hle : f ≤ t) : passed l n (some t) := by
  intro i hi c g hc hg
  obtain ⟨k, hk, hgk⟩ := h i hi c g hc hg
  cases hk
  exact ⟨t, rfl, hgk.trans hle⟩

/-- A room's cursor against its last frame, with the supply warning asserted or not and the part ready or not (R150). -/
structure RoomRec.CursorOk (supply notReady : Bool) (rm : RoomRec) : Prop where
  passed : passed rm.list rm.cursor rm.tc.last
  base : rm.tc.last = none ∨ rm.path.state = .off ∨ supply = true → rm.cursor = baseOf rm.list
  off : notReady = true → rm.path.state = .off ∧ rm.path.phase = .none

theorem State.notReady_iff (s : State) : s.notReady = true ↔ s.store ≠ .ready ∨ s.restart ≠ none := by
  simp [State.notReady, Option.isSome_iff_ne_none]

theorem State.cursorsOk_iff (s : State) : s.cursorsOk ↔ ∀ r, (s.room r).CursorOk s.supply s.notReady := by
  constructor
  · exact fun h r => ⟨(h r).1, (h r).2.1, fun k => (h r).2.2 (s.notReady_iff.1 k)⟩
  · exact fun h r => ⟨(h r).passed, (h r).base, fun k => (h r).off (s.notReady_iff.2 k)⟩

section
variable {supply notReady : Bool} {a b : RoomRec}

theorem RoomRec.CursorOk.ready (h : a.CursorOk supply notReady) (hs : a.path.state ≠ .off ∨ a.path.phase ≠ .none) : notReady = false := by
  cases e : notReady with
  | false => rfl
  | true =>
    obtain ⟨h1, h2⟩ := h.off e
    rcases hs with k | k
    · exact absurd h1 k
    · exact absurd h2 k

/-- The cursor, its list and the last frame stay. -/
structure RoomRec.SameCursor (a b : RoomRec) : Prop where
  list : b.list = a.list := by rfl
  cursor : b.cursor = a.cursor := by rfl
  last : b.tc.last = a.tc.last := by rfl

theorem RoomRec.SameCursor.trans {c : RoomRec} (h : a.SameCursor b) (k : b.SameCursor c) : a.SameCursor c :=
  ⟨k.list.trans h.list, k.cursor.trans h.cursor, k.last.trans h.last⟩

/-- A room that moves to another state than OFF, or stays where it is. -/
theorem RoomRec.SameCursor.cursorOk (k : a.SameCursor b) (h : a.CursorOk supply notReady)
    (hs : b.path.state = .off → a.path.state = .off)
    (hr : notReady = true → b.path.state = a.path.state ∧ b.path.phase = a.path.phase) : b.CursorOk supply notReady := by
  refine ⟨?_, ?_, fun e => ?_⟩
  · rw [k.list, k.cursor, k.last]
    exact h.passed
  · rw [k.list, k.cursor, k.last]
    exact fun e => h.base (e.imp_right (Or.imp_left hs))
  · rw [(hr e).1, (hr e).2]
    exact h.off e

/-- A cursor at base is in order, whatever the last frame (R150). -/
theorem RoomRec.cursorOk_base (hc : b.cursor = baseOf b.list) (hr : notReady = true → b.path.state = .off ∧ b.path.phase = .none) :
    b.CursorOk supply notReady :=
  ⟨hc ▸ passed_baseOf _ _, fun _ => hc, hr⟩

/-- A cursor that is placed is in order while the supply warning is released (R148). -/
theorem RoomRec.cursorOk_placed (hc : b.cursor = b.placement) (hr : notReady = true → b.path.state = .off ∧ b.path.phase = .none) :
    b.CursorOk false notReady := by
  cases hl : b.tc.last with
  | none =>
    have e : b.placement = baseOf b.list := by simp only [RoomRec.placement, hl]
    exact RoomRec.cursorOk_base (hc.trans e) hr
  | some t =>
    by_cases hs : b.path.state = .off
    · have e : b.placement = baseOf b.list := by simp only [RoomRec.placement, hl, hs, if_true]
      exact RoomRec.cursorOk_base (hc.trans e) hr
    · have e : b.placement = firstAt (fun f => decide (t < f)) b.list := by simp only [RoomRec.placement, hl, hs, if_false]
      refine ⟨?_, fun k => ?_, hr⟩
      · rw [hc, e, hl]
        exact passed_firstAt _ t
      · rw [hl] at k
        rcases k with k | k | k
        · cases k
        · exact absurd k hs
        · cases k

end

theorem Timecode.switch_last (tc : Timecode) (old new : Option Lane) : (tc.switch old new).last = tc.last := by
  unfold Timecode.switch
  split
  · rfl
  · split <;> rfl

theorem RoomRec.sameCursor_applyChange (rm : RoomRec) (c : DipChange) : rm.SameCursor (rm.applyChange c) := by
  cases c with
  | format i =>
    rw [RoomRec.applyChange, RoomRec.applyFormat_eq]
    exact {}
  | source m => exact { last := Timecode.switch_last _ _ _ }
  | bank n => exact {}

theorem RoomRec.sameCursor_applySlots (rm : RoomRec) : rm.SameCursor rm.applySlots :=
  RoomRec.applySlots_keeps (P := rm.SameCursor) {} (fun x c hx => hx.trans (x.sameCursor_applyChange c)) fun _ hx => hx.trans {}

theorem RoomRec.sameCursor_endDip (rm : RoomRec) : rm.SameCursor rm.endDip := by
  unfold RoomRec.endDip
  split
  · exact {}
  · exact rm.sameCursor_applySlots.trans {}

/-- A room in a state other than OFF or a phase, of a part that is therefore ready, moves to a state that is not OFF. -/
theorem RoomRec.cursorOk_afterTransit {supply notReady : Bool} {rm : RoomRec} {f : RoomRec → RoomRec} (h : rm.CursorOk supply notReady)
    (hs : rm.path.state ≠ .off ∨ rm.path.phase ≠ .none) (hf : ∀ x : RoomRec, x.SameCursor (f x))
    (hout : ∀ x : RoomRec, x.path = rm.path → (f x).path.state ≠ .off) : (rm.afterTransit f).CursorOk supply notReady := by
  have ready := h.ready hs
  refine RoomRec.SameCursor.cursorOk ?_ h (fun k => ?_) fun k => by rw [ready] at k; cases k
  · exact RoomRec.afterTransit_keeps (P := rm.SameCursor) {} (fun _ => rm.sameCursor_endDip) (fun x hx => hx.trans (hf x))
      fun _ hx => hx.trans {}
  · refine absurd k (RoomRec.markEntry_keeps (P := fun x => x.path.state ≠ .off) _ (hout _ ?_) fun _ => id)
    split
    · exact rm.endDip_path
    · rfl

theorem State.cursorsOk_setLaw {s : State} {law : Vector Nat 101} (h : s.cursorsOk) : ({ s with law := law } : State).cursorsOk := h

theorem State.cursorsOk_loadFaderLaw {s : State} (body : List Payload) (h : s.cursorsOk) : (s.loadFaderLaw body).1.cursorsOk := by
  rw [State.loadFaderLaw]
  split
  · exact h
  · exact State.cursorsOk_setLaw h

theorem State.notReady_congr {s t : State} (hs : t.store = s.store) (hr : t.restart = s.restart) : t.notReady = s.notReady := by
  unfold State.notReady
  rw [hs, hr]

theorem State.onlyRooms_notReady {s t : State} (h : s.onlyRooms t) : t.notReady = s.notReady := by rw [h]; rfl

/-- A part whose rooms are in order for the supply warning and the readiness of another that agrees with it in both. -/
theorem State.cursorsOk_of {s t : State} (h : ∀ q, (t.room q).CursorOk s.supply s.notReady) (hs : t.supply = s.supply)
    (hn : t.notReady = s.notReady) : t.cursorsOk := by
  rw [State.cursorsOk_iff, hs, hn]
  exact h

theorem State.cursorsOk_of_onlyRooms {s t : State} (h : ∀ q, (t.room q).CursorOk s.supply s.notReady) (ho : s.onlyRooms t) :
    t.cursorsOk := State.cursorsOk_of h (State.onlyRooms_supply ho) (State.onlyRooms_notReady ho)

theorem State.notReady_tick (s : State) : s.tick.notReady = s.notReady := by
  show ((s.store.tick != .ready) || (s.restart.map _).isSome) = ((s.store != .ready) || s.restart.isSome)
  cases s.store <;> cases s.restart <;> rfl

theorem State.takesTimecode_iff (s : State) (r : Room) :
    s.takesTimecode r = true ↔ s.supply = false ∧ s.notReady = false ∧ (s.room r).path.state ≠ .off := by
  simp [State.takesTimecode, State.cuesFire, and_assoc]

/-- While the Cue Engine takes no timecode the cursor stands at base (R154, R171). -/
theorem RoomRec.CursorOk.base_of_deaf {s : State} {r : Room} (h : (s.room r).CursorOk s.supply s.notReady)
    (ht : s.takesTimecode r = false) : (s.room r).cursor = baseOf (s.room r).list := by
  by_cases hs : (s.room r).path.state = .off
  · exact h.base (.inr (.inl hs))
  · refine h.base (.inr (.inr ?_))
    have ready := h.ready (.inl hs)
    by_contra k
    rw [(s.takesTimecode_iff r).2 ⟨Bool.eq_false_of_not_eq_true k, ready, hs⟩] at ht
    cases ht

/-- Where the Cue Engine takes timecode, a cursor that has passed up to the last frame is in order. -/
theorem RoomRec.cursorOk_of_taken {s : State} {r : Room} {rm : RoomRec} (ht : s.takesTimecode r = true) {t : Nat}
    (hl : rm.tc.last = some t) (hs : rm.path = (s.room r).path) (hp : passed rm.list rm.cursor (some t)) :
    rm.CursorOk s.supply s.notReady := by
  obtain ⟨supply, ready, on⟩ := (s.takesTimecode_iff r).1 ht
  refine ⟨hl ▸ hp, fun k => ?_, fun k => by rw [ready] at k; cases k⟩
  rw [hl, hs, supply] at k
  rcases k with k | k | k
  · cases k
  · exact absurd k on
  · cases k

/-- A room's timecode record moves (R45, R46, R154). -/
theorem RoomRec.cursorOk_timecode {s : State} {r : Room} {new : Timecode} (h : (s.room r).CursorOk s.supply s.notReady)
    (hnew : new.last = (s.room r).tc.last ∨ ∃ t, new.last = some t ∧
      ((∃ f, (s.room r).tc.last = some f ∧ f ≤ t) ∨ s.takesTimecode r = false)) :
    RoomRec.CursorOk s.supply s.notReady { s.room r with tc := new } := by
  rcases hnew with e | ⟨t, ht, ⟨f, hf, hle⟩ | deaf⟩
  · exact RoomRec.SameCursor.cursorOk (a := s.room r) { last := e } h id fun _ => ⟨rfl, rfl⟩
  · refine ⟨?_, fun k => h.base (k.imp_left fun k => ?_), h.off⟩
    · have before := h.passed
      rw [hf] at before
      show passed (s.room r).list (s.room r).cursor new.last
      rw [ht]
      exact passed_mono before hle
    · have k : new.last = none := k
      rw [ht] at k
      cases k
  · exact RoomRec.cursorOk_base (h.base_of_deaf deaf) h.off

theorem RoomRec.cursorOk_toSettling {rm : RoomRec} (h : rm.CursorOk false false) : rm.toSettling.CursorOk false false := by
  unfold RoomRec.toSettling
  dsimp only
  split
  · exact RoomRec.cursorOk_placed rfl nofun
  · exact RoomRec.SameCursor.cursorOk (a := rm) {} h nofun nofun

theorem Move.cursorsOk {s t : State} (hm : Move s t) (h : s.cursorsOk) : t.cursorsOk := by
  have hroom := s.cursorsOk_iff.1 h
  have change {r : Room} {f : RoomRec → RoomRec} (hf : (f (s.room r)).CursorOk s.supply s.notReady) : (s.modRoom r f).cursorsOk :=
    State.cursorsOk_of (State.forall_modRoom (Q := fun _ rm => rm.CursorOk s.supply s.notReady) hroom hf) rfl rfl
  have same {a b : RoomRec} (ha : a.CursorOk s.supply s.notReady) (hc : a.SameCursor b) (hs : b.path.state = a.path.state)
      (hp : b.path.phase = a.path.phase) : b.CursorOk s.supply s.notReady :=
    hc.cursorOk ha (fun k => hs.symm.trans k) fun _ => ⟨hs, hp⟩
  have keep {r : Room} {f : RoomRec → RoomRec} (hc : (s.room r).SameCursor (f (s.room r)))
      (hs : (f (s.room r)).path.state = (s.room r).path.state) (hp : (f (s.room r)).path.phase = (s.room r).path.phase) :
      (s.modRoom r f).cursorsOk := change (same (hroom r) hc hs hp)
  have moves {r : Room} {f : RoomRec → RoomRec} (hs : (s.room r).path.state ≠ .off ∨ (s.room r).path.phase ≠ .none)
      (hc : (s.room r).SameCursor (f (s.room r))) (ho : (f (s.room r)).path.state = .off → (s.room r).path.state = .off) :
      (s.modRoom r f).cursorsOk :=
    change (hc.cursorOk (hroom r) ho fun k => by rw [(hroom r).ready hs] at k; cases k)
  have transit {r : Room} {own : List NoticeBody} {f : RoomRec → RoomRec}
      (hs : (s.room r).path.state ≠ .off ∨ (s.room r).path.phase ≠ .none) (hf : ∀ x : RoomRec, x.SameCursor (f x))
      (hout : ∀ x : RoomRec, x.path = (s.room r).path → (f x).path.state ≠ .off) : (s.transit r own f).cursorsOk :=
    State.cursorsOk_of_onlyRooms (State.forall_transit (Q := fun _ rm => rm.CursorOk s.supply s.notReady) hroom
      (RoomRec.cursorOk_afterTransit (hroom r) hs hf hout)) (State.onlyRooms_transit s r own f)
  have every {f : RoomRec → RoomRec} (hf : ∀ q, (f (s.room q)).CursorOk s.supply s.notReady) (q : Room) :
      ((s.mapRooms f).room q).CursorOk s.supply s.notReady :=
    State.forall_mapRooms (Q := fun _ rm => rm.CursorOk s.supply s.notReady) hf q
  have still {t u : State} (h : ∀ q, (u.room q).CursorOk s.supply s.notReady) (hr : t.rooms = u.rooms) (q : Room) :
      (t.room q).CursorOk s.supply s.notReady := State.forall_congr (Q := fun _ rm => rm.CursorOk s.supply s.notReady) h hr q
  have state {r : Room} {st : RoomState} (h : (s.room r).path.state = st) (hne : st ≠ .off) :
      (s.room r).path.state ≠ .off ∨ (s.room r).path.phase ≠ .none := .inl (h ▸ hne)
  have phase {r : Room} {ph : Phase} (h : (s.room r).path.phase = ph) (hne : ph ≠ .none) :
      (s.room r).path.state ≠ .off ∨ (s.room r).path.phase ≠ .none := .inr (h ▸ hne)
  have put {rm : RoomRec} (h : rm.CursorOk s.supply s.notReady) (x : CondId) (v : Cond) :
      (rm.putCond x v).CursorOk s.supply s.notReady := by cases x <;> exact same h {} rfl rfl
  cases hm
  case quiet part rooms =>
    exact State.cursorsOk_of (fun r => same (hroom r) ⟨(rooms r).list, (rooms r).cursor, (rooms r).last⟩ (by rw [(rooms r).path])
      (by rw [(rooms r).path])) part.supply part.notReady
  case timecode r new hnew => exact change (RoomRec.cursorOk_timecode (hroom r) hnew)
  case advance r t hl ht =>
    refine change (RoomRec.cursorOk_of_taken ht hl rfl (passed_firstAtFrom ?_))
    rw [← hl]
    exact (hroom r).passed
  case jump r new t hl ht =>
    refine change (RoomRec.cursorOk_of_taken ht hl rfl (passed_firstAtFrom fun i hi c f hc hf => ⟨t, rfl, ?_⟩))
    exact (Nat.lt_of_not_le (of_decide_eq_false (firstAt_before hi hc hf))).le
  case commit r _ hs =>
    refine change ?_
    rw [hs]
    exact RoomRec.cursorOk_placed rfl (hroom r).off
  case rewind r => exact change (RoomRec.cursorOk_base rfl (hroom r).off)
  case off r =>
    have rooms := State.forall_transit (Q := fun _ rm => rm.CursorOk s.supply s.notReady) (r := r) (own := []) (f := RoomRec.toOff) hroom
      (RoomRec.afterTransit_gives (P := fun rm => rm.CursorOk s.supply s.notReady) _
        (fun _ => RoomRec.cursorOk_base rfl fun _ => ⟨rfl, rfl⟩) fun x hx => same hx {} rfl rfl)
    exact State.cursorsOk_of_onlyRooms (still rooms rfl) (State.onlyRooms_enterOff s r)
  case halt r hs =>
    have rooms := State.forall_transit (Q := fun _ rm => rm.CursorOk s.supply s.notReady) (r := r) (own := []) (f := RoomRec.toHalted)
      hroom (RoomRec.cursorOk_afterTransit (hroom r) (hs.elim (state · nofun) (state · nofun)) (fun _ => {}) fun _ _ => nofun)
    exact State.cursorsOk_of_onlyRooms (still rooms rfl) (State.onlyRooms_enterHalted s r)
  case park r hs =>
    exact transit (hs.elim (phase · nofun) (·.elim (phase · nofun) (phase · nofun))) (fun _ => {}) fun _ _ => nofun
  case goLive r hs _ => exact transit (state hs nofun) (fun _ => {}) fun _ _ => nofun
  case relive r hs => exact transit (state hs nofun) (fun _ => {}) fun _ _ => nofun
  case cancel r hs => exact transit (hs.elim (state · nofun) (phase · nofun)) (fun _ => {}) fun _ _ => nofun
  case proofEnd r _ hs => exact transit (state hs nofun) (fun _ => {}) fun _ _ => nofun
  case loss r _ hs => exact transit (hs.elim (state · nofun) (state · nofun)) (fun _ => {}) fun _ _ => nofun
  case found r hs _ => exact transit (state hs nofun) (fun _ => {}) fun _ _ => nofun
  case prove r own hs =>
    refine transit (state hs nofun) (fun x => ?_) fun x hx => ?_ <;> unfold RoomRec.toProve <;> dsimp only <;> split
    · exact {}
    · exact {}
    · rw [hx, hs]
      exact nofun
    · exact nofun
  case listen r _ hc =>
    obtain ⟨hsupply, hready⟩ : s.supply = false ∧ s.notReady = false := by simpa [State.cuesFire] using hc
    refine State.cursorsOk_of_onlyRooms (State.forall_transit (Q := fun _ rm => rm.CursorOk s.supply s.notReady) hroom ?_)
      (State.onlyRooms_transit s r [] RoomRec.toSettling)
    have before := hroom r
    rw [hsupply, hready] at before ⊢
    refine RoomRec.afterTransit_keeps (P := RoomRec.CursorOk false false) before
      (fun hx => (RoomRec.sameCursor_endDip _).cursorOk hx (fun k => by rwa [RoomRec.endDip_path] at k) nofun)
      (fun _ => RoomRec.cursorOk_toSettling) fun x hx => RoomRec.SameCursor.cursorOk {} hx id nofun
  case settled r hp => exact moves (phase hp nofun) {} id
  case ramp r ph p1 len hs _ _ => exact moves (state hs nofun) {} id
  case onAir r hp _ => exact moves (phase hp nofun) {} nofun
  case handOn r c =>
    refine State.cursorsOk_of_onlyRooms (State.forall_handOn (Q := fun _ rm => rm.CursorOk s.supply s.notReady) hroom
      (fun _ => same (hroom r) {} rfl rfl) fun _ => same (hroom r) (RoomRec.sameCursor_applyChange _ c) ?_ ?_) (State.onlyRooms_handOn s r c)
      <;> rw [RoomRec.applyChange_path]
  case bottom r _ =>
    refine State.cursorsOk_of_onlyRooms (State.forall_dipBottom (Q := fun _ rm => rm.CursorOk s.supply s.notReady) hroom
      (same (hroom r) ((RoomRec.sameCursor_applySlots _).trans {}) ?_ ?_)) (State.onlyRooms_dipBottom s r) <;> rw [RoomRec.bottom_path]
  case law body => exact State.cursorsOk_loadFaderLaw body h
  case load r rm _ hw =>
    rw [RoomRec.loaded_eq hw]
    exact State.cursorsOk_of (State.forall_commitLoad (Q := fun _ rm => rm.CursorOk s.supply s.notReady) hroom
      (same (hroom r) {} rfl rfl)) rfl rfl
  case trims r n trim =>
    rw [show (fun rm : RoomRec => rm.setBank n _) = _ from funext fun rm => RoomRec.setBank_eq rm n _]
    exact keep {} rfl rfl
  case raise r x p n _ _ =>
    exact State.cursorsOk_of_onlyRooms (State.forall_raiseCond (Q := fun _ rm => rm.CursorOk s.supply s.notReady) hroom fun u _ =>
      same (put (hroom r) x u) {} rfl rfl) (State.onlyRooms_raiseCond s r x p n)
  case clear r x _ => exact change (f := fun rm => rm.putCond x .quiet) (put (hroom r) x _)
  case ack r x n m =>
    exact State.cursorsOk_of_onlyRooms (State.forall_ackOne (Q := fun _ rm => rm.CursorOk s.supply s.notReady) hroom (put (hroom r) x _))
      (State.onlyRooms_ackOne s r x n m)
  case judged r x truth h => exact change (put (hroom r) x _)
  case values ws which =>
    exact State.cursorsOk_of (State.forall_takeValues (Q := fun _ rm => rm.CursorOk s.supply s.notReady) hroom fun q =>
      same (hroom q) {} rfl rfl) rfl rfl
  case chains which =>
    exact State.cursorsOk_of (State.forall_stepDecode (Q := fun _ rm => rm.CursorOk s.supply s.notReady) hroom fun q =>
      same (hroom q) {} rfl rfl) rfl rfl
  case tick =>
    have rooms := every (f := RoomRec.tick s.supply) fun q =>
      same (hroom q) {} (s.room q).path.tick_still.1 (s.room q).path.tick_still.2
    exact State.cursorsOk_of (still rooms rfl) rfl s.notReady_tick
  case newBlock =>
    have rooms := every (f := RoomRec.newBlock) fun q => same (hroom q) {} rfl rfl
    exact State.cursorsOk_of (still rooms rfl) rfl rfl
  case asserted =>
    have rooms := State.forall_mapRooms (Q := fun _ rm => rm.CursorOk true s.notReady) (s := s)
      (f := fun rm => { rm.cursorToBase with timers := Vector.ofFn fun i => rm.timers[i].freeze })
      fun q => RoomRec.cursorOk_base rfl (hroom q).off
    exact (State.cursorsOk_iff _).2 (State.forall_congr (Q := fun _ rm => rm.CursorOk true s.notReady) rooms rfl)
  case released =>
    refine (State.cursorsOk_iff _).2 fun q => ⟨(hroom q).passed, fun k => (hroom q).base (k.imp_right (Or.imp_right nofun)), (hroom q).off⟩
  case placed hs =>
    refine State.cursorsOk_of (every fun q => ?_) rfl rfl
    rw [hs]
    exact RoomRec.cursorOk_placed rfl (hroom q).off
  case storeReady =>
    exact (State.cursorsOk_iff _).2 fun q => ⟨(hroom q).passed, (hroom q).base, fun k => (hroom q).off (s.notReady_iff.2 (.inr
      ((State.notReady_iff _).1 k |>.resolve_left (· rfl))))⟩
  case restartDone =>
    exact (State.cursorsOk_iff _).2 fun q => ⟨(hroom q).passed, (hroom q).base, fun k => (hroom q).off (s.notReady_iff.2 (.inl
      ((State.notReady_iff _).1 k |>.resolve_right (· rfl))))⟩
  case restart =>
    refine (State.cursorsOk_iff _).2 fun q => ?_
    rw [State.room_restartBegin]
    exact RoomRec.cursorOk_base rfl fun _ => ⟨rfl, rfl⟩
  case lanes ws later =>
    delta State.takeLanes
    exact State.cursorsOk_of (still hroom rfl) rfl (State.notReady_congr rfl rfl)
  case input | ended => exact State.cursorsOk_of (still hroom rfl) rfl rfl
  case absence | record | setRoom | gain | ascent | alarmEntry | draftClear | draftAppend => exact keep {} rfl rfl

/-! ### Every step -/

theorem Turn.cuesOk {s t : State} (ht : Turn s t) (h : s.cuesOk) : t.cuesOk := by
  cases ht with
  | move hm => exact hm.cuesOk h
  | desk m out => exact h
  | close _ => exact h

theorem Turn.cursorsOk {s t : State} (ht : Turn s t) (h : s.cursorsOk) : t.cursorsOk := by
  cases ht with
  | move hm => exact hm.cursorsOk h
  | desk m out => exact h
  | close _ => exact h

theorem State.cuesOk_fullReset (s : State) (line : Bool) : (s.fullReset line).cuesOk := by
  refine ⟨?_, show ∀ q, ((s.fullReset line).room q).cuesOk from fun q => ?_⟩
  · simp only [State.cueUsed, State.room_fullReset]
    decide
  · rw [State.room_fullReset]
    exact ⟨cuesOrdered_nil, cuesOrdered_nil, .nil, .inl rfl⟩

theorem State.cursorsOk_fullReset (s : State) (line : Bool) : (s.fullReset line).cursorsOk := by
  refine (State.cursorsOk_iff _).2 fun q => ?_
  rw [State.room_fullReset]
  exact RoomRec.cursorOk_base rfl fun _ => ⟨rfl, rfl⟩

/-- Settles O57: only the three moves on a draft change the store; a cursor moves past cues of the last frame only, or is placed. -/
theorem cuesKept : Obligations.CuesKept := fun _ _ hs =>
  ⟨step_keeps (fun _ _ => id) State.cuesOk_fullReset (fun _ _ => Turn.cuesOk) hs,
    step_keeps (fun _ _ => id) State.cursorsOk_fullReset (fun _ _ => Turn.cursorsOk) hs⟩

end Sys2Proof.Machine
end

section
/-! Meters, timers and contacts (07, 08, 09): every step keeps the counts of the block, the period and the contact inputs, and the
timers, in their ranges (O58). -/

namespace Sys2Proof.Machine

/-- The contact inputs, the position in the block and the marks of the period stay. -/
structure State.SameClock (s t : State) : Prop where
  inputs : t.inputs = s.inputs := by rfl
  blockPos : t.blockPos = s.blockPos := by rfl
  blockEndDue : t.blockEndDue = s.blockEndDue := by rfl
  blockEnded : t.blockEnded = s.blockEnded := by rfl
  periodOpen : t.periodOpen = s.periodOpen := by rfl

theorem State.SameClock.of_onlyRooms {s t : State} (h : s.onlyRooms t) : s.SameClock t :=
  ⟨State.onlyRooms_inputs h, State.onlyRooms_blockPos h, State.onlyRooms_blockEndDue h, State.onlyRooms_blockEnded h,
    State.onlyRooms_periodOpen h⟩

theorem State.SameClock.countsOk {s t : State} (h : s.SameClock t) (hs : s.countsOk) : t.countsOk := by
  unfold State.countsOk
  rw [h.inputs, h.blockPos, h.blockEndDue, h.blockEnded, h.periodOpen]
  exact hs

theorem State.sameClock_setLaw (s : State) (law : Vector Nat 101) : s.SameClock { s with law := law } := {}

theorem State.sameClock_loadFaderLaw (s : State) (body : List Payload) : s.SameClock (s.loadFaderLaw body).1 := by
  rw [State.loadFaderLaw]
  split
  · exact {}
  · exact State.sameClock_setLaw s _

/-- The moves that change the clock. -/
inductive ClockMove (s : State) : State → Prop where
  | tick (h : s.blockEndDue = false) : ClockMove s s.tick
  | input (i : Fin 16) (c : ContactIn) (h : c.run < 960 ∨ c.run = s.inputs[i].run) : ClockMove s (s.modInput i fun _ => c)
  | newBlock (lanes : Vector LaneRec 256) (n : BitVec 32) :
      ClockMove s { s.mapRooms RoomRec.newBlock with lanes := lanes, blockNumber := n, blockPos := 0, blockEndDue := false }
  | ended (ho : s.periodOpen = true) (h : s.blockPos = 0) : ClockMove s { s with blockEnded := true }

theorem Move.sameClock {s t : State} (hm : Move s t) : s.SameClock t ∨ ClockMove s t := by
  cases hm
  case tick h => exact .inr (.tick h)
  case input i c h => exact .inr (.input i c h)
  case newBlock lanes n _ => exact .inr (.newBlock lanes n)
  case ended ho h => exact .inr (.ended ho h)
  all_goals left
  case quiet part _ => exact ⟨part.inputs, part.blockPos, part.blockEndDue, part.blockEnded, part.periodOpen⟩
  case off r => exact .of_onlyRooms (State.onlyRooms_enterOff s r)
  case halt r _ => exact .of_onlyRooms (State.onlyRooms_enterHalted s r)
  case proofEnd r rec _ =>
    unfold State.endProof
    exact .of_onlyRooms (State.onlyRooms_transit _ _ _ _)
  case park | listen | prove | goLive | relive | cancel | loss | found => exact .of_onlyRooms (State.onlyRooms_transit _ _ _ _)
  case handOn r c => exact .of_onlyRooms (State.onlyRooms_handOn s r c)
  case bottom r _ => exact .of_onlyRooms (State.onlyRooms_dipBottom s r)
  case raise r x p n _ _ => exact .of_onlyRooms (State.onlyRooms_raiseCond s r x p n)
  case clear r x _ => exact .of_onlyRooms (State.onlyRooms_clearCond s r x)
  case ack r x n m => exact .of_onlyRooms (State.onlyRooms_ackOne s r x n m)
  case law body => exact s.sameClock_loadFaderLaw body
  case lanes ws later =>
    delta State.takeLanes
    exact {}
  case restart =>
    delta State.restartBegin
    exact {}
  all_goals exact {}

theorem Move.countsOk {s t : State} (hm : Move s t) (h : s.countsOk) : t.countsOk := by
  rcases hm.sameClock with same | hc
  · exact same.countsOk h
  · obtain ⟨hin, hpos, hdue, hopen, hended⟩ := h
    cases hc with
    | tick hd => exact ⟨hin, hpos, hdue, fun _ => hd, fun k => ⟨rfl, (hended k).2⟩⟩
    | input i c hc =>
      refine ⟨fun j => ?_, hpos, hdue, hopen, hended⟩
      have run : (s.modInput i fun _ => c).inputs[j] = if j = i then c else s.inputs[j] := by
        simp only [State.modInput, Fin.getElem_fin, Vector.getElem_set, Fin.ext_iff, eq_comm]
      rw [run]
      split
      · have old := hin i
        omega
      · exact hin j
    | newBlock lanes n => exact ⟨hin, Nat.zero_le _, ⟨nofun, nofun⟩, fun _ => rfl, fun k => ⟨(hended k).1, rfl⟩⟩
    | ended ho hp => exact ⟨hin, hpos, hdue, hopen, fun _ => ⟨ho, hp⟩⟩

theorem State.countsOk_closePeriod {s : State} (ho : s.periodOpen = true) (h : s.countsOk) : s.closePeriod.countsOk := by
  obtain ⟨hin, hpos, hdue, hopen, -⟩ := h
  have short : s.blockPos < 480 := lt_of_le_of_ne hpos fun k => by
    have due := hopen ho
    rw [hdue.2 k] at due
    cases due
  have next : (if s.blockEnded then 0 else s.blockPos + 1) ≤ 480 := by
    split <;> omega
  refine ⟨hin, next, ?_, nofun, nofun⟩
  show decide (480 ≤ if s.blockEnded then 0 else s.blockPos + 1) = true ↔ (if s.blockEnded then 0 else s.blockPos + 1) = 480
  rw [decide_eq_true_iff]
  omega

/-! ### Timers (R165 to R169) -/

/-- Every timer of a room is in order. -/
def RoomRec.timersOk (rm : RoomRec) : Prop := ∀ i : Fin 4, rm.timers[i].ok

theorem RoomRec.timersOk_congr {a b : RoomRec} (h : a.timersOk) (e : b.timers = a.timers) : b.timersOk := by
  unfold RoomRec.timersOk
  rw [e]
  exact h

theorem RoomRec.timersOk_each {a b : RoomRec} {f : Timer → Timer} (h : a.timersOk) (hf : ∀ t : Timer, t.ok → (f t).ok)
    (e : b.timers = Vector.ofFn fun i => f a.timers[i]) : b.timersOk := by
  intro i
  rw [e, Fin.getElem_fin, Vector.getElem_ofFn]
  exact hf _ (h i)

theorem RoomRec.applyChange_timers (rm : RoomRec) (c : DipChange) : (rm.applyChange c).timers = rm.timers := by
  cases c with
  | format i =>
    rw [RoomRec.applyChange, RoomRec.applyFormat_eq]
  | source m => rfl
  | bank n => rfl

theorem RoomRec.applySlots_timers (rm : RoomRec) : rm.applySlots.timers = rm.timers :=
  RoomRec.applySlots_keeps (P := fun x => x.timers = rm.timers) rfl (fun x c hx => (x.applyChange_timers c).trans hx) fun _ => id

theorem RoomRec.endDip_timers (rm : RoomRec) : rm.endDip.timers = rm.timers := by
  unfold RoomRec.endDip
  split
  · rfl
  · exact rm.applySlots_timers

theorem RoomRec.timersOk_afterTransit {rm : RoomRec} {f : RoomRec → RoomRec} (h : rm.timersOk)
    (hf : ∀ x : RoomRec, x.timersOk → (f x).timersOk) : (rm.afterTransit f).timersOk :=
  RoomRec.afterTransit_keeps h (fun hx => RoomRec.timersOk_congr hx (RoomRec.endDip_timers _)) hf fun _ hx => hx

theorem RoomRec.timersOk_tick {rm : RoomRec} (h : rm.timersOk) (supply : Bool) : (rm.tick supply).timersOk := by
  cases supply
  · exact RoomRec.timersOk_each h (fun _ => Timer.ok_advance) rfl
  · exact RoomRec.timersOk_congr h rfl

theorem Move.timersOk {s t : State} (hm : Move s t) (h : s.timersOk) : t.timersOk := by
  have hroom : ∀ q, (s.room q).timersOk := h
  show ∀ q, (t.room q).timersOk
  have change {r : Room} {f : RoomRec → RoomRec} (hf : (f (s.room r)).timersOk) (q : Room) : ((s.modRoom r f).room q).timersOk :=
    State.forall_modRoom (Q := fun _ rm => rm.timersOk) hroom hf q
  have keep {r : Room} {f : RoomRec → RoomRec} (e : (f (s.room r)).timers = (s.room r).timers) (q : Room) :
      ((s.modRoom r f).room q).timersOk := change (RoomRec.timersOk_congr (hroom r) e) q
  have transit {r : Room} {own : List NoticeBody} {f : RoomRec → RoomRec} (hf : ∀ x : RoomRec, x.timersOk → (f x).timersOk)
      (q : Room) : ((s.transit r own f).room q).timersOk :=
    State.forall_transit (Q := fun _ rm => rm.timersOk) hroom (RoomRec.timersOk_afterTransit (hroom r) hf) q
  have every {f : RoomRec → RoomRec} (hf : ∀ x : RoomRec, x.timersOk → (f x).timersOk) (q : Room) : ((s.mapRooms f).room q).timersOk :=
    State.forall_mapRooms (Q := fun _ rm => rm.timersOk) (fun q => hf _ (hroom q)) q
  have still {t u : State} (h : ∀ q, (u.room q).timersOk) (hr : t.rooms = u.rooms) (q : Room) : (t.room q).timersOk :=
    State.forall_congr (Q := fun _ rm => rm.timersOk) h hr q
  have put {rm : RoomRec} (h : rm.timersOk) (x : CondId) (v : Cond) : (rm.putCond x v).timersOk := by
    cases x <;> exact h
  cases hm
  case quiet part rooms => exact fun r i => (rooms r).timers i (hroom r i)
  case off r =>
    exact still (transit (r := r) (own := []) (f := RoomRec.toOff) fun x hx => RoomRec.timersOk_each hx (fun _ => Timer.ok_stop) rfl) rfl
  case halt r _ => exact still (transit (r := r) (own := []) (f := RoomRec.toHalted) fun _ hx => hx) rfl
  case park | goLive | relive | cancel | proofEnd | loss | found => exact transit fun _ hx => hx
  case listen r _ _ =>
    refine transit fun x hx => ?_
    unfold RoomRec.toSettling
    dsimp only
    split <;> exact hx
  case prove r own _ =>
    refine transit fun x hx => ?_
    unfold RoomRec.toProve
    dsimp only
    split <;> exact hx
  case handOn r c =>
    exact State.forall_handOn (Q := fun _ rm => rm.timersOk) hroom (fun _ => hroom r) fun _ =>
      RoomRec.timersOk_congr (hroom r) (RoomRec.applyChange_timers _ c)
  case bottom r _ =>
    exact State.forall_dipBottom (Q := fun _ rm => rm.timersOk) hroom (RoomRec.timersOk_congr (hroom r) (RoomRec.applySlots_timers _))
  case law body => exact fun q => by rw [State.room_loadFaderLaw]; exact hroom q
  case load r rm _ hw =>
    rw [RoomRec.loaded_eq hw]
    exact State.forall_commitLoad (Q := fun _ rm => rm.timersOk) hroom (hroom r)
  case trims r n trim =>
    rw [show (fun rm : RoomRec => rm.setBank n _) = _ from funext fun rm => RoomRec.setBank_eq rm n _]
    exact keep rfl
  case raise r x p n _ _ => exact State.forall_raiseCond (Q := fun _ rm => rm.timersOk) hroom fun u _ => put (hroom r) x u
  case clear r x _ => exact change (f := fun rm => rm.putCond x .quiet) (put (hroom r) x _)
  case ack r x n m => exact State.forall_ackOne (Q := fun _ rm => rm.timersOk) hroom (put (hroom r) x _)
  case judged r x truth h => exact change (put (hroom r) x _)
  case values ws which => exact State.forall_takeValues (Q := fun _ rm => rm.timersOk) hroom hroom
  case chains which => exact State.forall_stepDecode (Q := fun _ rm => rm.timersOk) hroom hroom
  case tick => exact still (every (f := RoomRec.tick s.supply) fun _ hx => RoomRec.timersOk_tick hx s.supply) rfl
  case asserted =>
    exact still (every (f := fun rm => { rm.cursorToBase with timers := Vector.ofFn fun i => rm.timers[i].freeze })
      fun _ hx => RoomRec.timersOk_each hx (fun _ => Timer.ok_freeze) rfl) rfl
  case placed => exact every fun _ hx => hx
  case newBlock => exact still (every (f := RoomRec.newBlock) fun _ hx => hx) rfl
  case restart =>
    exact still (every (f := RoomRec.restart s.law) fun _ hx => RoomRec.timersOk_each hx (fun _ => Timer.ok_stop) rfl) rfl
  case lanes ws later =>
    delta State.takeLanes
    exact still hroom rfl
  case released | storeReady | restartDone | input | ended => exact still hroom rfl
  case absence | record | settled | ramp | onAir | setRoom | gain | ascent | alarmEntry | draftClear | draftAppend | commit | rewind |
    timecode | advance | jump => exact keep rfl

/-! ### Every step -/

theorem Turn.countsOk {s t : State} (ht : Turn s t) (h : s.countsOk) : t.countsOk := by
  cases ht with
  | move hm => exact hm.countsOk h
  | desk m out => exact h
  | close ho => exact State.countsOk_closePeriod ho h

theorem Turn.timersOk {s t : State} (ht : Turn s t) (h : s.timersOk) : t.timersOk := by
  cases ht with
  | move hm => exact hm.timersOk h
  | desk m out => exact h
  | close _ => exact h

theorem State.countsOk_fullReset (s : State) (line : Bool) : (s.fullReset line).countsOk := by
  refine ⟨fun i => ?_, Nat.zero_le _, ⟨nofun, nofun⟩, nofun, nofun⟩
  have zero : (s.fullReset line).inputs[i].run = 0 := congrArg ContactIn.run (Vector.getElem_replicate _)
  rw [zero]
  omega

theorem State.timersOk_fullReset (s : State) (line : Bool) : (s.fullReset line).timersOk := by
  show ∀ q, ((s.fullReset line).room q).timersOk
  intro q i
  have reset : ((s.fullReset line).room q).timers[i] = RoomRec.reset.timers[i] := by rw [State.room_fullReset]
  have timer : RoomRec.reset.timers[i] = Timer.reset := Vector.getElem_replicate _
  rw [reset, timer]
  unfold Timer.ok
  decide

/-- Settles O58: the clock changes in five ways and the timers in four, and each keeps them in range. -/
theorem countsKept : Obligations.CountsKept := fun _ _ hs =>
  ⟨step_keeps (fun _ _ => id) State.countsOk_fullReset (fun _ _ => Turn.countsOk) hs,
    step_keeps (fun _ _ => id) State.timersOk_fullReset (fun _ _ => Turn.timersOk) hs⟩

end Sys2Proof.Machine
end

section
/-! The step, the full reset, messages and admission (10): what a command makes of a request, from its arrival to the result of the six
admission steps. -/

namespace Sys2Proof.Machine

/-! ### The step and the full reset -/

/-- No command stops the part: each answers a next state. -/
theorem exec_next (i : Instr) (s : State) : ∃ t, exec i s = .next t := by
  cases i <;> exact ⟨_, rfl⟩

/-- Settles O1: by the definition of the step on the two forms of the queue. -/
theorem stepRunsFrontCommand : Obligations.StepRunsFrontCommand := by
  refine ⟨fun c rest s h => ?_, fun s h => ?_, exec_next⟩
  · unfold step
    rw [h]
  · unfold step
    rw [h]

/-- The reset part is the one that a full reset with a released line leaves of it. -/
theorem State.fullReset_reset : State.reset.fullReset false = State.reset := rfl

/-- Settles O60: what a full reset gives. -/
theorem resetMeetsInvariants : Obligations.ResetMeetsInvariants := by
  unfold Obligations.ResetMeetsInvariants
  rw [← State.fullReset_reset]
  exact ⟨State.pathsOk_fullReset _ _, Mgmt.ok_reset, State.budgetOk_fullReset _ _, State.alarmsOk_fullReset _ _,
    State.factorsOk_fullReset _ _, State.cuesOk_fullReset _ _, State.countsOk_fullReset _ _, State.tagsOk_fullReset _ _, nofun,
    State.signalsOk_fullReset _ _, State.cursorsOk_fullReset _ _, State.timersOk_fullReset _ _⟩

/-! ### Arrival (R188 to R193) -/

/-- The opening of a sample period leaves one open. -/
theorem State.periodOpen_openPeriod (s : State) : s.openPeriod.periodOpen = true := by
  unfold State.openPeriod
  split
  · assumption
  · rfl

/-- An assembly that is discarded is IDLE and counted (R189). -/
theorem State.breakAssembly_discarded (s : State) : s.discardAssembly.breakAssembly = s.discardAssembly :=
  State.breakAssembly_of_idle rfl

/-- A request that arrives while no assembly is in progress, in an open period, completes (R188). -/
theorem exec_of_arrival {i : Instr} {q : Request} {s : State} (hi : request? i = some q) (ho : s.periodOpen = true)
    (ha : s.mgmt.asm.stage = .idle) : exec i s = .next (s.complete q) := by
  rw [exec_of_request s hi, State.openPeriod_of_open ho, State.breakAssembly_of_idle ha]

/-- A request that arrives while nothing is held or waiting is judged at once (R193). -/
theorem exec_of_listening {i : Instr} {q : Request} {s : State} (hi : request? i = some q) (hl : s.listening) :
    exec i s = .next ((s.answer q).1.repliedTo q (s.answer q).2.1 (s.answer q).2.2) := by
  rw [exec_of_arrival hi hl.1 hl.2.1, State.complete_of_listening q hl, State.perform1_eq]

/-- Settles O2: by the cases of a completion, and of the taking of the head. -/
theorem requestTakenOrQueued : Obligations.RequestTakenOrQueued := by
  refine ⟨fun i q s => exec_of_listening, fun i q s hi => ?_, fun i q s hi ho ha => ⟨fun hq hh => ?_, fun hq => ?_⟩⟩
  · rw [exec_of_request s hi, exec_of_request _ hi, State.openPeriod_of_open s.periodOpen_openPeriod]
  · rw [exec_of_arrival hi ho ha]
    rcases s.complete_cases q with ⟨-, e⟩ | ⟨full, -⟩
    · rw [e]
      rcases State.takeHead_cases { s with mgmt := { s.mgmt with queue := s.mgmt.queue ++ [q] } } with ⟨_, _, none, -⟩ | ⟨-, e'⟩
      · exact absurd none hh
      · rw [e']
    · omega
  · rw [exec_of_arrival hi ho ha]
    rcases s.complete_cases q with ⟨short, -⟩ | ⟨-, e⟩
    · omega
    · rw [e]

theorem State.assembled_assembly (s : State) (a b : Assembly) :
    State.assembled { s with mgmt := { s.mgmt with asm := a } } b = s.assembled b := rfl

/-- The body words of a message gather until the declared length (R188). -/
theorem State.takeWords_assembled (s : State) : ∀ (body : List Payload) (a : Assembly), a.stage = .body →
    a.body.length + body.length = a.declared →
    (body.map SlotWord.data).foldl State.takeWord (s.assembled a) =
      State.complete { s with mgmt := { s.mgmt with asm := .idle } } { a.request with body := a.body ++ body }
  | [], a, _, hlen => by
    rw [List.append_nil, State.assembled, if_pos (by simpa using hlen)]
    rfl
  | p :: rest, a, hs, hlen => by
    rw [List.length_cons] at hlen
    have waits : s.assembled a = { s with mgmt := { s.mgmt with asm := a } } := if_neg (by omega)
    have taken : State.takeWord { s with mgmt := { s.mgmt with asm := a } } (.data p) = s.assembled { a with body := a.body ++ [p] } := by
      simp only [State.takeWord, hs, State.assembled_assembly]
    rw [List.map_cons, List.foldl_cons, waits, taken,
      State.takeWords_assembled s rest { a with body := a.body ++ [p] } hs (by simp only [List.length_append, List.length_singleton]; omega),
      List.append_assoc]
    rfl

theorem State.assembly_idle {s : State} (h : s.mgmt.asm = .idle) : ({ s with mgmt := { s.mgmt with asm := .idle } } : State) = s :=
  congrArg (fun a => ({ s with mgmt := { s.mgmt with asm := a } } : State)) h.symm

/-- Settles O4: the body by induction, each discard by its word. -/
theorem messageGatheredOrDiscarded : Obligations.MessageGatheredOrDiscarded := by
  refine ⟨fun s start kind body hi hlen => ?_, fun s => ⟨fun h => ?_, fun h => ?_, rfl, fun p h => ?_, fun p h => ?_, fun i q hi ho h => ?_⟩⟩
  · have begun : s.takeWord (.start start) = { s with mgmt := { s.mgmt with asm := .ofStart start } } := by
      simp only [State.takeWord, State.breakAssembly_of_idle (show s.mgmt.asm.stage = .idle by rw [hi]; rfl)]
    have named : State.takeWord { s with mgmt := { s.mgmt with asm := .ofStart start } } (.data kind) =
        s.assembled ((Assembly.ofStart start).takeKind kind) := rfl
    rw [List.foldl_cons, List.foldl_cons, begun, named, 
      State.takeWords_assembled s body ((Assembly.ofStart start).takeKind kind) rfl ((Nat.zero_add _).trans hlen),
      State.assembly_idle hi]
    rfl
  · exact State.breakAssembly_of_busy h
  · exact State.breakAssembly_of_idle h
  · simp only [State.takeWord, h, State.discardAssembly]
  · show State.takeWord s (.start p) = State.takeWord s.discardAssembly (.start p)
    have broken : s.breakAssembly = s.discardAssembly := State.breakAssembly_of_busy h
    simp only [State.takeWord, State.breakAssembly_discarded, broken]
  · have open' : s.discardAssembly.periodOpen = true := ho
    show exec i s = exec i s.discardAssembly
    rw [exec_of_request s hi, exec_of_request _ hi, State.openPeriod_of_open ho, State.openPeriod_of_open open',
      State.breakAssembly_discarded, State.breakAssembly_of_busy h]
    rfl

/-! ### Notices (R204, R205) -/

/-- Settles O5: by what an event of a room's path changes and announces, and by the two cases of a notice. -/
theorem noticeJoinsOrIsCounted : Obligations.NoticeJoinsOrIsCounted := by
  refine ⟨fun s r own f => ?_, fun m r rm b l => ⟨rfl, fun h => ?_, fun h => ?_⟩, fun s r b => ⟨fun h => ?_, fun h => ?_⟩⟩
  · refine ⟨⟨s.onlyRooms_transit r own f, fun q hq => s.transit_room_ne own f hq⟩, s.transit_alarms r own f, ?_⟩
    rw [s.transit_mgmt r own f, s.transit_room_self r own f]
    rfl
  · rw [Mgmt.told_cons, Mgmt.raise_of_lt _ _ _ h]
  · rw [Mgmt.told_cons, Mgmt.raise_of_full _ _ _ h]
  · exact ⟨by rw [State.notifyPart, Mgmt.raise_of_lt _ _ _ h], by rw [State.notify, Mgmt.raise_of_lt _ _ _ h]⟩
  · exact ⟨by rw [State.notifyPart, State.notify, Mgmt.raise_of_full _ _ _ h, Mgmt.raise_of_full _ _ _ h],
      by rw [State.notify, Mgmt.raise_of_full _ _ _ h]⟩

end Sys2Proof.Machine
end

section
/-! Admission and refusals (10): the result of each of the six steps, and that a refusal changes nothing (O3, O6 to O9). -/

namespace Sys2Proof.Machine

/-! ### A refused request changes nothing (R195) -/

/-- An answer that is OK, or changes nothing. -/
def State.Harmless (s : State) (a : Answer) : Prop := a.2.1 = .ok ∨ a.1 = s

/-- A judgement that is OK, or changes nothing. -/
def State.Spares (s : State) (x : State × Result) : Prop := x.2 = .ok ∨ x.1 = s

section
variable {s : State}

@[simp] theorem State.harmless_refuse (res : Result) : s.Harmless (s.refuse res) := .inr rfl

@[simp] theorem State.harmless_refuseWith (res : Result) (fs : List Fld) : s.Harmless (s.refuseWith res fs) := .inr rfl

@[simp] theorem State.harmless_accept (t : State) (fs : List Fld) : s.Harmless (t.accept fs) := .inl rfl

@[simp] theorem State.spares_ok (t : State) : s.Spares (t, .ok) := .inl rfl

@[simp] theorem State.spares_self (res : Result) : s.Spares (s, res) := .inr rfl

/-- A go request that is refused leaves the part as it is (R14). -/
theorem State.spares_goJudge (r : Room) (t : GoTarget) : s.Spares (s.goJudge r t) := by
  have low {x : State × Result} (h : s.Spares x) : s.Spares (if s.supply then (s, .supplyLow) else x) := by
    split
    · exact State.spares_self _
    · exact h
  cases t with
  | goOff =>
    show s.Spares (s.goOff r)
    unfold State.goOff
    repeat' split
    all_goals simp
  | goStop =>
    show s.Spares (s.goStop r)
    unfold State.goStop
    split <;> simp
  | goListen =>
    refine low ?_
    unfold State.goListen
    split <;> simp
  | goProve =>
    refine low ?_
    unfold State.goProve
    repeat' split
    all_goals simp
  | goLive =>
    refine low ?_
    unfold State.goLive
    repeat' split
    all_goals simp
  | goPark =>
    refine low ?_
    unfold State.goPark
    repeat' split
    all_goals simp

theorem State.harmless_reqGo (r : Room) (body : List Payload) : s.Harmless (s.reqGo r body) := by
  unfold State.reqGo
  split
  · simp
  · dsimp only
    split
    · simp
    · exact (State.spares_goJudge r _).resolve_left ‹_› |> .inr

theorem State.harmless_reqSelectFormat (r : Room) (body : List Payload) : s.Harmless (s.reqSelectFormat r body) := by
  have spares (i : Fin 4) : s.Spares (s.selectFormat r i) := by
    unfold State.selectFormat
    dsimp only
    split <;> simp
  unfold State.reqSelectFormat
  split
  · exact spares _
  · simp

/-- The rule of a kind that refuses changes nothing. -/
theorem State.harmless_serve (k : Kind) (q : Request) : s.Harmless (s.serve k q) := by
  cases k
  case go => exact State.harmless_reqGo _ _
  case selectFormat => exact State.harmless_reqSelectFormat _ _
  case loadFaderLaw =>
    show s.Harmless (s.loadFaderLaw q.body)
    rw [State.loadFaderLaw]
    split
    · simp
    · exact .inl rfl
  case readPart | readRoom | readMeters | readContacts | setGain | maskAlarms | cueDraftClear | cueRewind | engineRestart =>
    exact State.harmless_accept _ _
  case readCounts | readAlarms | readCues | readBank | readProfile | setGuard | selectSource | setMute | selectBank | setAlarmEntry |
    ackAlarm | cueCommit | timerStop | setContact =>
    simp only [State.serve, State.reqReadCounts, State.reqReadAlarms, State.reqReadCues, State.reqReadBank, State.reqReadProfile,
      State.reqSetGuard, State.reqSelectSource, State.reqSetMute, State.reqSelectBank, State.reqSetAlarm, State.reqAck, State.reqCommit,
      State.reqTimerStop, State.reqSetContact]
    split <;> simp
  case setRoom | setSourceMap | setFormatEntry | clearProfile | loadProfileRow | setProfileParams | loadSections | setTrims | clearBank |
    copyBank | cueDraftAppend | cueGo | timerStart | setContactOwner =>
    simp only [State.serve, State.reqSetRoom, State.reqSetSourceMap, State.reqSetFormatEntry, State.reqClearProfile,
      State.reqLoadProfileRow, State.reqSetProfileParams, State.reqLoadSections, State.reqSetTrims, State.reqClearBank,
      State.reqCopyBank, State.reqDraftAppend, State.reqCueGo, State.reqTimerStart, State.reqSetOwner]
    repeat' split
    all_goals simp

end

/-- Settles O3: a refusal of steps 1 to 5 leaves the part, and so does the rule of every kind that refuses. -/
theorem refusalChangesNothing : Obligations.RefusalChangesNothing := by
  intro s q h
  rcases s.answer_cases q with ⟨-, e⟩ | ⟨k, res, -, -, e⟩ | ⟨k, -, -, e⟩
  · rw [e]
  · rw [e]
  · rw [e] at h ⊢
    exact (State.harmless_serve k q).resolve_left h

/-! ### Steps 1 to 5 (R196 to R199) -/

theorem Kind.ofCode_none {n : Nat} (h : n = 0 ∨ 41 ≤ n) : Kind.ofCode n = none := by
  rcases h with rfl | h
  · rfl
  · rw [Kind.ofCode, if_neg (by omega)]
    exact List.getElem?_eq_none (show 40 ≤ n - 1 by omega)

theorem Request.formed_none {q : Request} (h : 72 < q.body.length ∨ Kind.ofCode q.kind.toNat = none ∨
    ∃ k, Kind.ofCode q.kind.toNat = some k ∧ k.lengthOk q.body = false) : q.formed = none := by
  unfold Request.formed
  rcases h with h | h | ⟨k, hk, hl⟩
  · exact if_pos h
  · simp [h]
  · simp [hk, hl]

/-- A request that is not well formed is answered with MALFORMED (R196). -/
theorem exec_of_malformed {i : Instr} {q : Request} {s : State} (hi : request? i = some q) (hl : s.listening) (hf : q.formed = none) :
    exec i s = .next (s.repliedTo q .malformed []) := by
  rw [exec_of_listening hi hl]
  simp only [State.answer, hf, State.refuse]

/-- Settles O6: the three cases, and the codes that name no kind. -/
theorem malformedRefused : Obligations.MalformedRefused :=
  ⟨fun _ _ _ hi hl h => exec_of_malformed hi hl (Request.formed_none h), fun _ _ _ _ hl h =>
    exec_of_malformed rfl hl (Request.formed_none (.inr (.inl (Kind.ofCode_none h))))⟩

/-- Step 2 (R196). -/
theorem State.admission_badRoom {s : State} {k : Kind} {q : Request} (h : k.form.passes q.room = false) :
    s.admission k q = some .badRoom := if_pos h

/-- Step 3 (R197). -/
theorem State.admission_notReady {s : State} {k : Kind} {q : Request} (hr : k.form.passes q.room = true) (hn : s.notReady = true)
    (hk : k ≠ .readPart) : s.admission k q = some .notReady := by
  simp [State.admission, hr, hn, hk]

/-- Step 4 (R198). -/
theorem State.admission_denied {s : State} {k : Kind} {q : Request} (hr : k.form.passes q.room = true) (hn : s.readable)
    (hp : s.levelPasses k (q.room?.getD 0) q = false) : s.admission k q = some .denied := by
  simp [State.admission, hr, State.notReady, hn.1, hn.2, hp]

/-- Step 5 (R199). -/
theorem State.admission_supplyLow {s : State} {k : Kind} {q : Request} (hr : k.form.passes q.room = true) (hn : s.readable)
    (hp : s.levelPasses k (q.room?.getD 0) q = true) (hs : s.supply = true) (hk : k.isRead = false) (he : exempt k q = false) :
    s.admission k q = some .supplyLow := by
  simp [State.admission, hr, State.notReady, hn.1, hn.2, hp, hs, hk, he]

/-- A request passes steps 2 to 5. -/
theorem State.admission_passes {s : State} {k : Kind} {q : Request} (hr : k.form.passes q.room = true) (hn : s.readable)
    (hp : s.levelPasses k (q.room?.getD 0) q = true) (hs : s.supply = false ∨ k.isRead = true ∨ exempt k q = true) :
    s.admission k q = none := by
  rcases hs with hs | hs | hs <;> simp [State.admission, hr, State.notReady, hn.1, hn.2, hp, hs]

theorem Kind.isRead_iff (k : Kind) : k.isRead = true ↔ k ∈ readKinds := by
  cases k <;> decide

/-- Settles O7: steps 2, 3 and 5 in turn. -/
theorem roomStoreAndSupplyRefused : Obligations.RoomStoreAndSupplyRefused := by
  refine ⟨fun i q k s hi hl hf => ⟨fun hr => ?_, fun hr hn hk => ?_⟩, fun i q k s hi hl hn hs hf hr hp hk hack hgo => ?_⟩
  · refine exec_of_refused hi hl hf (State.admission_badRoom ?_)
    rcases hr with ⟨e, h⟩ | ⟨e, h⟩ | ⟨e, h1, h2⟩ <;> rw [e] <;> simp [RoomForm.passes, *]
  · exact exec_of_refused hi hl hf (State.admission_notReady hr (s.notReady_iff.2 hn) hk)
  · refine exec_of_refused hi hl hf (State.admission_supplyLow hr hn hp hs ?_ ?_)
    · rwa [← Bool.not_eq_true, Kind.isRead_iff]
    · cases k
      case ackAlarm => exact absurd rfl hack
      case go => exact decide_eq_false fun k => hgo ⟨rfl, k⟩
      all_goals rfl

/-- Settles O8: step 4 by the level class of the kind. -/
theorem deniedRefused : Obligations.DeniedRefused := by
  intro i q k r s hi hl hn hf hr hroom hdeny
  refine exec_of_refused hi hl hf (State.admission_denied hr hn ?_)
  unfold State.levelPasses
  cases hc : k.levelClass <;> rw [hc] at hdeny
  case any => cases hdeny
  case roomWrite =>
    simp only [hroom, atMost, Bool.and_eq_false_iff, decide_eq_false_iff_not]
    omega
  case partTable | restart | acknowledge =>
    simp only [atMost, decide_eq_false_iff_not]
    omega
  case cueGate =>
    obtain ⟨c, hfind, hgate⟩ := hdeny
    simp only [hroom, hfind, atMost, decide_eq_false_iff_not]
    omega
  case contact =>
    rcases hdeny with h | ⟨o, w, ho, hown, hguard⟩
    · simp only [atMost, decide_eq_false (show ¬q.level.toNat ≤ 2 by omega), Bool.false_and]
    · have owner : (below 24 (arg q.body 0)).bind (fun o => s.outputs[o].owner) = some w := by
        rw [below_of_eq ho.symm]
        exact hown
      simp only [owner, atMost, Bool.and_eq_false_iff, decide_eq_false_iff_not]
      omega
  case guard =>
    simp only [hroom, atMost, Bool.and_eq_false_iff, decide_eq_false_iff_not]
    omega

/-! ### Step 6 and an output map entry that is no code (R71, R200) -/

/-- A part outside a sample period's work that takes a message at once: ready, with nothing held and a period open. -/
def readyPart : State := { State.reset with store := .ready, periodOpen := true }

/-- A SET_FORMAT_ENTRY of room 0 with the output map entry 20, which is neither a channel, nor a decode output, nor NONE. -/
def strayEntry : Request := ⟨0, 0, Kind.setFormatEntry.code, 0, 0, 0 :: 0 :: 0 :: List.replicate 16 20⟩

theorem readyPart_listening : readyPart.listening ∧ readyPart.readable ∧ readyPart.supply = false :=
  ⟨⟨rfl, rfl, rfl, rfl⟩, ⟨rfl, rfl⟩, rfl⟩

theorem strayEntry_formed : strayEntry.formed = some .setFormatEntry := by decide

theorem strayEntry_admitted : readyPart.admission .setFormatEntry strayEntry = none :=
  State.admission_roomWrite (r := 0) rfl rfl rfl ⟨rfl, rfl, rfl⟩ (by decide) (by decide)

/-- The entry is written: `OutSrc.ofCode` gives every code that names nothing as the NONE of an output map. -/
theorem strayEntry_accepted : (readyPart.serve .setFormatEntry strayEntry).2.1 = .ok := by
  rfl

/-- Refutes O9: the output map entry 20 is accepted, as NONE, where BAD_FIELD is claimed. -/
theorem not_badFieldsRefused : ¬ Obligations.BadFieldsRefused := by
  intro h
  obtain ⟨listening, readable, supply⟩ := readyPart_listening
  have claimed := h (.setFormatEntry ⟨0, 0, 0, 0⟩ strayEntry.body) strayEntry .setFormatEntry readyPart rfl listening readable
    strayEntry_formed (by decide) (by decide) (.inl supply) (.inr (.inr (.inr ⟨3, by decide, by decide, .inl (by decide)⟩)))
  rw [exec_of_admitted rfl listening strayEntry_formed strayEntry_admitted] at claimed
  have results := congrArg (fun t : State => t.mgmt.holder.map Reply.result) (Host.Outcome.next.inj claimed)
  have refused : (readyPart.serve .setFormatEntry strayEntry).2.1 = .badField := Option.some.inj results
  rw [strayEntry_accepted] at refused
  cases refused

end Sys2Proof.Machine
end

section
/-! Requests as rows: what a message of each kind makes of the part when it is taken and admitted; the two resets (O50, O51) and tags
(O38). -/

namespace Sys2Proof.Machine

/-! ### The message of a row (R188, R195 to R199) -/

/-- The request that a row of kind `k` with this header and body brings (Table 11-1). -/
def messageOf (h : Header) (k : Kind) (body : List Payload) : Request := ⟨h.originator, h.level, k.code, h.room, h.tag, body⟩

theorem Kind.ofCode_code (k : Kind) : Kind.ofCode k.code.toNat = some k := by
  cases k <;> rfl

/-- A message with a body of the length of its kind is well formed (R196). -/
theorem messageOf_formed {h : Header} {k : Kind} {body : List Payload} (hl : k.lengthOk body = true) (hb : body.length ≤ 72) :
    (messageOf h k body).formed = some k := by
  have short : ¬Config.bodyMax < (messageOf h k body).body.length := Nat.not_lt.2 hb
  have code : Kind.ofCode (messageOf h k body).kind.toNat = some k := k.ofCode_code
  have length : k.lengthOk (messageOf h k body).body = true := hl
  simp only [Request.formed, if_neg short, code, length, if_true]

theorem messageOf_room {h : Header} {r : Room} (hr : h.room.toNat = r.val) (k : Kind) (body : List Payload) :
    (messageOf h k body).room? = some r := Request.room?_of_eq hr

section
variable {i : Instr} {s u : State} {h : Header} {r : Room} {k : Kind} {body : List Payload} {res : Result} {fs : List Fld}

/-- The course of a message that arrives alone and passes steps 1 to 5. -/
theorem exec_of_message (hi : request? i = some (messageOf h k body)) (hl : s.listening) (hlen : k.lengthOk body = true)
    (hb : body.length ≤ 72) (ha : s.admission k (messageOf h k body) = none) (hs : s.serve k (messageOf h k body) = (u, res, pack fs)) :
    exec i s = .next (u.replied h k res fs) := by
  rw [exec_of_admitted hi hl (messageOf_formed hlen hb) ha, hs]
  rfl

/-- The course of a room write (R198). -/
theorem exec_of_roomWrite (hi : request? i = some (messageOf h k body)) (hs : s.admits h r) (hf : k.form = .room)
    (hc : k.levelClass = .roomWrite) (hlen : k.lengthOk body = true) (hb : body.length ≤ 72)
    (ha : (messageOf h k body).room?.getD 0 = r → s.serve k (messageOf h k body) = (u, res, pack fs)) :
    exec i s = .next (u.replied h k res fs) := by
  obtain ⟨hl, hop, hr, hlevel, hguard⟩ := hs
  refine exec_of_message hi hl hlen hb (State.admission_roomWrite hf hc hr hop hlevel hguard) (ha ?_)
  rw [messageOf_room hr]
  rfl

/-- The course of a write of a part table (R198). -/
theorem exec_of_tableWrite (hi : request? i = some (messageOf h k body)) (hs : s.admitsTable h) (hf : k.form = .none)
    (hc : k.levelClass = .partTable) (hlen : k.lengthOk body = true) (hb : body.length ≤ 72)
    (ha : s.serve k (messageOf h k body) = (u, res, pack fs)) : exec i s = .next (u.replied h k res fs) := by
  obtain ⟨hl, hop, hr, hlevel⟩ := hs
  exact exec_of_message hi hl hlen hb (State.admission_partTable hf hc hr hop hlevel) ha

end

/-! ### The resets (R30, R207, R209) -/

/-- Settles O50: by the definition of the reset part. -/
theorem fullResetActs : Obligations.FullResetActs := by
  refine ⟨fun s line => rfl, fun r => ?_, ?_, ?_, ?_, ?_, ?_, rfl, rfl, rfl, rfl, rfl, rfl, rfl, rfl, rfl⟩
  · rw [State.room_reset]
    exact ⟨rfl, rfl, rfl, rfl, rfl, rfl, rfl, rfl, rfl, rfl, rfl, rfl, rfl, rfl, rfl, rfl, rfl, rfl, rfl⟩
  all_goals
    show (Vector.ofFn fun f : Fin 101 => 65536 * f.val / 70)[_] = _
    rw [Fin.getElem_fin, Vector.getElem_ofFn]
    decide

/-- An engine restart is admitted at level 0 (R198). -/
theorem State.admission_restart {s : State} {q : Request} (hr : q.room.toNat = 15) (hop : s.operational) (hl : q.level.toNat = 0) :
    s.admission .engineRestart q = none := by
  obtain ⟨hstore, hrestart, hsupply⟩ := hop
  exact State.admission_passes (by simp [Kind.form, RoomForm.passes, hr]) ⟨hstore, hrestart⟩
    (by simp [State.levelPasses, Kind.levelClass, atMost, hl]) (.inl hsupply)

theorem State.restartBegin_frame (s : State) : s.restartBegin = { s with
    restart := some 0, alarms := [], handovers := [], lanes := s.restartBegin.lanes, outputs := s.restartBegin.outputs
    rooms := s.restartBegin.rooms } := by
  delta State.restartBegin
  rfl

theorem State.restartBegin_lane (s : State) (l : Lane) : s.restartBegin.lanes[l] = { s.lanes[l] with hold := 0, mark := false } := by
  delta State.restartBegin
  simp only [Fin.getElem_fin, Vector.getElem_ofFn]

theorem State.restartBegin_output (s : State) (o : Fin 24) : s.restartBegin.outputs[o] = ⟨s.outputs[o].owner, false, .none⟩ := by
  delta State.restartBegin
  simp only [Fin.getElem_fin, Vector.getElem_ofFn]

/-- Settles O51: by what a restart makes of each block. -/
theorem engineRestartBegins : Obligations.EngineRestartBegins := by
  intro s h hl hop hr hlevel
  refine ⟨s.restartBegin, exec_of_message rfl hl rfl (Nat.zero_le _) (State.admission_restart hr hop hlevel) rfl, ?_, ?_, ?_, fun r => ?_⟩
  · exact s.restartBegin_frame
  · exact s.restartBegin_lane
  · exact s.restartBegin_output
  · rw [s.room_restartBegin]
    refine ⟨by unfold RoomRec.restart; cases (s.room r).activeMap.tc <;> rfl, fun i => ?_, fun k => ⟨?_, ?_⟩⟩
    · simp only [RoomRec.restart, Fin.getElem_fin, Vector.getElem_ofFn, Timer.stop]
    · simp only [RoomRec.restart, Fin.getElem_fin, Vector.getElem_ofFn, Meter.newBlock]
    · simp only [RoomRec.restart, Vector.getElem_replicate]

/-! ### Tags (R89) -/

/-- Settles O38: the tag by its three tests. -/
theorem tagByTests : Obligations.TagByTests := by
  intro c
  have unity : c.isUnity = true ↔ c = ⟨4194304, 0, 0, 0, 0⟩ := by
    obtain ⟨b0, b1, b2, a1, a2⟩ := c
    rw [Coefs.isUnity, decide_eq_true_iff, Coefs.mk.injEq]
    rfl
  have stable : c.stable = true ↔ |c.a2| < 4194304 ∧ |c.a1| < 4194304 + c.a2 := by
    simp [Coefs.stable, Config.oneCoef]
  refine ⟨fun h => ?_, fun h h2 h1 => ?_, fun h hn => ?_⟩
  · rw [Coefs.tag, if_pos (unity.2 h)]
  · rw [Coefs.tag, if_neg (h ∘ unity.1), if_pos (stable.2 ⟨h2, h1⟩)]
  · rw [Coefs.tag, if_neg (h ∘ unity.1), if_neg fun k => ?_]
    obtain ⟨k2, k1⟩ := stable.1 k
    omega

end Sys2Proof.Machine
end

section
/-! Requests of a room and of the part's tables: gains (O31), room fields (O26), source maps (O14), part tables (O32). -/

namespace Sys2Proof.Machine

/-- The rule of a kind sees the room that its message names. -/
theorem Request.room_getD {q : Request} {r : Room} (h : q.room.toNat = r.val) : q.room?.getD 0 = r := by
  rw [Request.room?_of_eq h]
  rfl

/-! ### SET_GAIN and SET_MUTE (R61 to R63) -/

section
variable {s : State} {h : Header} {r : Room}

theorem exec_setGain (hs : s.admits h r) (a b : Payload) :
    exec (.setGain h [a, b]) s = .next ((s.setGain r a.toNat b.toNat).replied h .setGain .ok []) :=
  exec_of_roomWrite rfl hs rfl rfl rfl (by simp) fun e => congrArg (fun r => s.reqSetGain r [a, b]) e

theorem exec_setMute (hs : s.admits h r) {a : Payload} {yes : Bool} (ha : boolOfCode a.toNat = some yes) :
    exec (.setMute h [a]) s = .next ((s.setMute r yes).replied h .setMute .ok []) := by
  refine exec_of_roomWrite rfl hs rfl rfl rfl (by simp) fun e => (congrArg (fun r => s.reqSetMute r [a]) e).trans ?_
  have code : boolOfCode (arg [a] 0) = some yes := ha
  simp only [State.reqSetMute, code]
  rfl

/-- A muted gain takes the step alone; another fades to the step's law entry (R62). -/
theorem State.setGain_eq (s : State) (r : Room) {step ms : Nat} {gn : Gain}
    (hg : (s.room r).gain.set s.law step ms = gn) : s.setGain r step ms = s.modRoom r fun rm => { rm with gain := gn } := by
  subst hg
  exact State.modRoom_congr s r _ _ rfl

theorem State.setMute_eq (s : State) (r : Room) {yes : Bool} {gn : Gain} (hg : (s.room r).gain.setMute s.law yes = gn) :
    s.setMute r yes = s.modRoom r fun rm => { rm with gain := gn } := by
  subst hg
  exact State.modRoom_congr s r _ _ rfl

/-- A mute that stands changes nothing (R63). -/
theorem State.setMute_same (s : State) (r : Room) : s.setMute r (s.room r).gain.mute = s :=
  State.modRoom_self s r _ (by simp [Gain.setMute])

end

/-- Settles O31: by the cases of the mute and of the length of the fade. -/
theorem gainRequestsFade : Obligations.GainRequestsFade := by
  intro s h r a b step hs hstep
  obtain rfl : clampStep a.toNat = step := Fin.ext hstep.symm
  refine ⟨fun hm hb => ?_, fun hm hb => ?_, fun hm => ?_, fun hm => ⟨?_, ?_⟩, fun hm => ⟨?_, ?_⟩⟩
  · have long : fadeLength b.toNat ≠ 0 := by
      unfold fadeLength
      omega
    rw [exec_setGain hs, State.setGain_eq s r (by rw [Gain.set, if_neg (by simp [hm]), Gain.begin, if_neg long])]
    rfl
  · have short : fadeLength b.toNat = 0 := by simp [fadeLength, hb]
    rw [exec_setGain hs, State.setGain_eq s r (by rw [Gain.set, if_neg (by simp [hm]), Gain.begin, if_pos short])]
  · rw [exec_setGain hs, State.setGain_eq s r (by rw [Gain.set, if_pos hm])]
  · rw [exec_setMute hs (a := 1) rfl, State.setMute_eq s r (by rw [Gain.setMute, if_neg (by simp [hm])])]
    rfl
  · rw [exec_setMute hs (a := 0) rfl, ← hm, State.setMute_same]
  · rw [exec_setMute hs (a := 0) rfl, State.setMute_eq s r (by rw [Gain.setMute, if_neg (by simp [hm])])]
    rfl
  · rw [exec_setMute hs (a := 1) rfl, ← hm, State.setMute_same]

/-! ### SET_ROOM and SET_GUARD (R29, R201) -/

theorem exec_setRoom {s u : State} {h : Header} {r : Room} {res : Result} {a b c d : Payload} (hs : s.admits h r)
    (hq : s.reqSetRoom r [a, b, c, d] = (u, res, [])) :
    exec (.setRoom h [a, b, c, d]) s = .next (u.replied h .setRoom res []) :=
  exec_of_roomWrite rfl hs rfl rfl rfl (by simp) fun e => (congrArg (fun r => s.reqSetRoom r [a, b, c, d]) e).trans hq

theorem Policy.ofCode_above {v : Nat} (h : 1 < v) : Policy.ofCode v = none := by
  obtain ⟨n, rfl⟩ := Nat.exists_eq_add_of_le' h
  rfl

/-- SET_ROOM refuses what is no policy and limits that cross (R29). -/
theorem State.reqSetRoom_badField {s : State} {r : Room} {a b c d : Payload}
    (h : 1 < d.toNat ∨ min 8388607 c.toNat < min 8388607 b.toNat) : s.reqSetRoom r [a, b, c, d] = s.refuse .badField := by
  have code : arg [a, b, c, d] 3 = d.toNat := rfl
  unfold State.reqSetRoom
  split
  · rfl
  · next pol hp =>
    rcases h with h | h
    · rw [code, Policy.ofCode_above h] at hp
      cases hp
    · exact if_pos h

theorem State.reqSetRoom_eq {s : State} {r : Room} {a b c d : Payload} {pol : Policy} (hp : Policy.ofCode d.toNat = some pol)
    (h : min 8388607 b.toNat ≤ min 8388607 c.toNat) :
    s.reqSetRoom r [a, b, c, d] = match (s.room r).path.state with
      | .off | .listen | .ready => (s.modRoom r fun rm =>
          rm.setRoom (BitVec.ofNat 16 a.toNat) (min 8388607 b.toNat) (min 8388607 c.toNat) pol).accept []
      | .prove | .live | .parked | .halted => s.refuse .wrongState := by
  have code : Policy.ofCode (arg [a, b, c, d] 3) = some pol := hp
  have order : ¬clampLevel (arg [a, b, c, d] 2) < clampLevel (arg [a, b, c, d] 1) := Nat.not_lt.2 h
  simp only [State.reqSetRoom, code, if_neg order]
  cases (s.room r).path.state <;> rfl

theorem State.admission_setGuard {s : State} {q : Request} {r : Room} (hr : q.room.toNat = r.val) (hop : s.operational)
    (ho : q.level.toNat ≤ (s.room r).guard.val) (hn : q.level.toNat ≤ arg q.body 0) : s.admission .setGuard q = none := by
  obtain ⟨hstore, hrestart, hsupply⟩ := hop
  exact State.admission_passes (by simp [Kind.form, RoomForm.passes, hr]) ⟨hstore, hrestart⟩
    (by simp [State.levelPasses, Kind.levelClass, atMost, Request.room_getD hr, ho, hn]) (.inl hsupply)

/-- Settles O26: by the branches of the two rules. -/
theorem roomFieldsWritten : Obligations.RoomFieldsWritten := by
  refine ⟨fun s h r a b c d hs => ⟨fun hbad => exec_setRoom hs (State.reqSetRoom_badField hbad), fun pol hp hle => ⟨fun hst => ?_, fun hst => ?_⟩⟩,
    fun s h r a g hl hop hr ho ha hn => ?_⟩
  · refine exec_setRoom hs ((State.reqSetRoom_eq hp hle).trans ?_)
    rcases hst with e | e | e <;> rw [e] <;> rfl
  · refine exec_setRoom hs ((State.reqSetRoom_eq hp hle).trans ?_)
    rcases hst with e | e | e | e <;> rw [e] <;> rfl
  · refine exec_of_message rfl hl rfl (by simp) (State.admission_setGuard hr hop ho (hn.trans_eq ha.symm))
      ((congrArg (fun r => s.reqSetGuard r [a]) (Request.room_getD hr)).trans ?_)
    have code : below 4 (arg [a] 0) = some g := below_of_eq ha
    simp only [State.reqSetGuard, code]
    rfl

/-! ### SET_SOURCE_MAP (R39, R47) -/

theorem allSome_map_some {α : Type} : ∀ l : List α, allSome (l.map some) = some l
  | [] => rfl
  | a :: l => by
    rw [List.map_cons, allSome, allSome_map_some l]
    rfl

/-- A run of `n` words whose values are those of a vector gives that vector. -/
theorem decodeAll_eq {α : Type} {n : Nat} {f : Nat → Option α} {v : Vector α n} {body : List Payload} {i : Nat}
    (h : ∀ c : Fin n, f (arg body (i + c.val)) = some v[c]) : decodeAll f body i n = some v.toList := by
  have values : ((List.range n).map fun k => f (arg body (i + k))) = v.toList.map some := by
    refine List.ext_getElem (by simp) fun k hk _ => ?_
    have hk : k < n := by simpa using hk
    simpa using h ⟨k, hk⟩
  rw [decodeAll, values, allSome_map_some]

theorem vecOf_toList {α : Type} {n : Nat} (d : α) (v : Vector α n) : vecOf n d v.toList = v := by
  ext k hk
  simp [vecOf]

theorem mapOfBody_eq {body : List Payload} {m : SourceMap} (hp : ∀ c : Chan, belowOrNone 256 (arg body (1 + c.val)) = some m.prog[c])
    (ht : belowOrNone 256 (arg body 17) = some m.tc) : mapOfBody body = some m := by
  simp only [mapOfBody, decodeAll_eq hp, ht, vecOf_toList]

/-- Settles O14: by the map in service and the state, and by the two entries of a switch. -/
theorem sourceMapWritten : Obligations.SourceMapWritten := by
  refine ⟨fun s h r src m body hs hlen hsrc hp ht => ?_, fun tc old new e => if_pos e, fun tc old => rfl, fun tc new => rfl,
    fun tc old new e => ⟨fun hl => ?_, fun hl => ?_⟩⟩
  · have course {u : State} {res : Result} (hq : s.reqSetSourceMap r body = (u, res, [])) :
        exec (.setSourceMap h body) s = .next (u.replied h .setSourceMap res []) :=
      exec_of_roomWrite rfl hs rfl rfl (beq_iff_eq.2 hlen) (by omega) fun e =>
        (congrArg (fun r => s.reqSetSourceMap r body) e).trans hq
    have rule : s.reqSetSourceMap r body =
        if (s.room r).activeSource = src ∧ (s.room r).path.state ≠ .off then s.refuse .inService
        else (s.modRoom r fun rm => rm.writeMap src m).accept [] := by
      simp only [State.reqSetSourceMap, hsrc, mapOfBody_eq hp ht]
    refine ⟨fun hin => course (rule.trans (if_pos hin)), fun hne => course (rule.trans ?_), fun he hoff => course (rule.trans ?_)⟩
    · rw [if_neg fun k => hne k.1]
      refine congrArg (·.accept []) (State.modRoom_congr s r _ _ ?_)
      cases src <;> simp [RoomRec.writeMap, Ne.symm hne]
    · rw [if_neg fun k => k.2 hoff]
      refine congrArg (·.accept []) (State.modRoom_congr s r _ _ ?_)
      cases src <;> simp [RoomRec.writeMap, RoomRec.activeMap, RoomRec.mapOf, he]
  · have ne : (some old : Option Lane) ≠ some new := fun k => e (Option.some.inj k)
    simp [Timecode.switch, ne, hl, Config.timecodeLoss]
  · have ne : (some old : Option Lane) ≠ some new := fun k => e (Option.some.inj k)
    simp [Timecode.switch, ne, hl]

end Sys2Proof.Machine
end

section
/-! The fader law and the steering profiles (O32). -/

namespace Sys2Proof.Machine

/-! ### LOAD_FADER_LAW (R59) -/

/-- The law with a run of entries written. -/
theorem State.loadFaderLaw_eq {s : State} {body : List Payload} (h1 : arg body 0 ≤ 100) (h2 : 0 < arg body 1) (h3 : arg body 1 ≤ 64)
    (h4 : arg body 0 + arg body 1 ≤ 101) : ∃ law, s.loadFaderLaw body = ({ s with law := law }, .ok, []) ∧ ∀ f : Fin 101,
      law[f] = if arg body 0 ≤ f.val ∧ f.val < arg body 0 + arg body 1 then min 131071 (arg body (2 + (f.val - arg body 0)))
        else s.law[f] := by
  have fits : ¬(100 < arg body 0 ∨ arg body 1 = 0 ∨ 64 < arg body 1 ∨ 101 < arg body 0 + arg body 1) := by omega
  refine ⟨_, if_neg fits, fun f => ?_⟩
  rw [Fin.getElem_fin, Vector.getElem_ofFn]
  rfl

/-! ### Profiles (R75 to R79) -/

theorem State.profileInService_of {s : State} {p i : Fin 4} {r : Room} (hm : (s.room r).formats[i].mode = .mx4)
    (hp : (s.room r).formats[i].profile = p)
    (h : ((s.room r).path.state ≠ .off ∧ (s.room r).activeFormat = i) ∨ (s.room r).dip.fmtSlot = some i) :
    s.profileInService p = true := by
  refine List.any_eq_true.2 ⟨r, List.mem_finRange r, ?_⟩
  rcases h with ⟨hoff, rfl⟩ | hslot
  · exact Bool.or_eq_true_iff.2 (.inl (Bool.and_eq_true_iff.2 ⟨decide_eq_true hoff, decide_eq_true ⟨hm, hp⟩⟩))
  · refine Bool.or_eq_true_iff.2 (.inr ?_)
    rw [hslot]
    exact decide_eq_true ⟨hm, hp⟩

theorem Profile.row_loadRow (x : Profile) (row : Row) (v : Vector (Int × Int) 33) : (x.loadRow row v).row row = v := by
  cases row <;> rfl

theorem Profile.row_loadRow_ne {x : Profile} {row other : Row} (h : other ≠ row) (v : Vector (Int × Int) 33) :
    (x.loadRow row v).row other = x.row other := by
  cases row <;> cases other <;> first | rfl | exact absurd rfl h

theorem Profile.loaded_loadRow (x : Profile) (row : Row) (v : Vector (Int × Int) 33) :
    (x.loadRow row v).loaded = x.loaded ||| (match row with | .l => 1#4 | .r => 2#4 | .c => 4#4 | .s => 8#4) := by
  cases row <;> rfl

theorem Profile.loadRow_params (x : Profile) (row : Row) (v : Vector (Int × Int) 33) :
    (x.loadRow row v).floor = x.floor ∧ (x.loadRow row v).attack = x.attack ∧ (x.loadRow row v).release = x.release := by
  cases row <;> exact ⟨rfl, rfl, rfl⟩

theorem ne_zero_of_or_row (l : BitVec 4) (row : Row) :
    l ||| (match row with | .l => 1#4 | .r => 2#4 | .c => 4#4 | .s => 8#4) ≠ 0#4 := by
  cases row <;> revert l <;> decide

/-- The state after a row is loaded is PARTIAL or READY (R77). -/
theorem Profile.stateCode_loadRow (x : Profile) (row : Row) (v : Vector (Int × Int) 33) :
    (x.loadRow row v).stateCode = if (x.loadRow row v).loaded = 15#4 then 2 else 1 := by
  have some_row : (x.loadRow row v).loaded ≠ 0#4 := by
    rw [Profile.loaded_loadRow]
    exact ne_zero_of_or_row _ _
  rw [Profile.stateCode, if_neg some_row]

theorem State.modProfile_congr (s : State) (p : Fin 4) {f g : Profile → Profile} (h : f s.profiles[p] = g s.profiles[p]) :
    s.modProfile p f = s.modProfile p g := by
  rw [State.modProfile, h]
  rfl

theorem State.modProfile_self (s : State) (p : Fin 4) (f : Profile → Profile) : (s.modProfile p f).profiles[p] = f s.profiles[p] := by
  simp [State.modProfile]

section
variable {s u : State} {h : Header} {res : Result} {fs : List Fld} (hs : s.admitsTable h)
include hs

theorem exec_clearProfile {a : Payload} (hq : s.reqClearProfile [a] = (u, res, pack fs)) :
    exec (.clearProfile h [a]) s = .next (u.replied h .clearProfile res fs) :=
  exec_of_tableWrite rfl hs rfl rfl rfl (by simp) hq

theorem exec_setProfileParams {a b c d : Payload} (hq : s.reqSetProfileParams [a, b, c, d] = (u, res, pack fs)) :
    exec (.setProfileParams h [a, b, c, d]) s = .next (u.replied h .setProfileParams res fs) :=
  exec_of_tableWrite rfl hs rfl rfl rfl (by simp) hq

theorem exec_loadProfileRow {a b : Payload} {pairs : List Payload} (hl : pairs.length = 66)
    (hq : s.reqLoadProfileRow (a :: b :: pairs) = (u, res, pack fs)) :
    exec (.loadProfileRow h (a :: b :: pairs)) s = .next (u.replied h .loadProfileRow res fs) :=
  exec_of_tableWrite rfl hs rfl rfl (by simp [Kind.lengthOk, hl]) (by simp [hl]) hq

end

section
variable {s : State} {a b c d : Payload} {p : Fin 4} (ha : a.toNat = p.val)
include ha

theorem State.reqClearProfile_eq : s.reqClearProfile [a] =
    if s.profileInService p then s.refuse .inService else (s.modProfile p Profile.clear).accept [] := by
  have code : below 4 (arg [a] 0) = some p := below_of_eq ha
  simp only [State.reqClearProfile, code]

theorem State.reqSetProfileParams_eq : s.reqSetProfileParams [a, b, c, d] =
    if s.profileInService p then s.refuse .inService
    else (s.modProfile p fun x => { x with
        floor := min 8388608 b.toNat, attack := max 1 (min 15 c.toNat), release := max 1 (min 15 d.toNat) }).accept
      [.bits 24 (min 8388608 b.toNat), .bits 4 (max 1 (min 15 c.toNat)), .bits 4 (max 1 (min 15 d.toNat))] := by
  have code : below 4 (arg [a, b, c, d] 0) = some p := below_of_eq ha
  simp only [State.reqSetProfileParams, code]
  rfl

theorem State.reqLoadProfileRow_eq {pairs : List Payload} {row : Row} (hb : Row.ofCode b.toNat = some row) :
    s.reqLoadProfileRow (a :: b :: pairs) =
      if s.profileInService p then s.refuse .inService
      else (s.modProfile p fun x => x.loadRow row (pairsOf (a :: b :: pairs))).accept
        [.bits 2 (s.profiles[p].loadRow row (pairsOf (a :: b :: pairs))).stateCode] := by
  have code : below 4 (arg (a :: b :: pairs) 0) = some p := below_of_eq ha
  have code' : Row.ofCode (arg (a :: b :: pairs) 1) = some row := hb
  simp only [State.reqLoadProfileRow, code, code', State.modProfile_self]

end

theorem Row.ofCode_some {v : Nat} (h : v ≤ 3) : ∃ row, Row.ofCode v = some row := by
  obtain rfl | rfl | rfl | rfl : v = 0 ∨ v = 1 ∨ v = 2 ∨ v = 3 := by omega
  all_goals exact ⟨_, rfl⟩

/-- Settles O32: by the branches of the four writes. -/
theorem partTablesWritten : Obligations.PartTablesWritten := by
  refine ⟨fun s h body hs h2 hlen h100 hpos h64 h101 => ?_, fun s h a b c d p hs ha hin => ⟨?_, ?_, fun pairs row hl hb => ?_⟩,
    fun s h a b c d p r i hs ha hm hp hin => ?_⟩
  · obtain ⟨law, hq, hlaw⟩ := State.loadFaderLaw_eq (s := s) h100 hpos h64 h101
    exact ⟨law, exec_of_tableWrite rfl hs rfl rfl (by simp [Kind.lengthOk, ← hlen, h2]) (by omega) hq, hlaw⟩
  · refine ⟨s.profiles[p].clear, exec_clearProfile hs ?_, rfl, rfl, rfl, rfl, rfl, rfl, rfl, rfl⟩
    rw [State.reqClearProfile_eq ha, if_neg (by simp [hin])]
    exact congrArg (·.accept []) (s.modProfile_congr p rfl)
  · refine exec_setProfileParams hs ?_
    rw [State.reqSetProfileParams_eq ha, if_neg (by simp [hin])]
    rfl
  · refine ⟨s.profiles[p].loadRow row (pairsOf (a :: b :: pairs)), exec_loadProfileRow hs hl ?_, fun e => ?_, fun other ho => ?_,
      Profile.loaded_loadRow _ _ _, Profile.loadRow_params _ _ _⟩
    · rw [State.reqLoadProfileRow_eq ha hb, if_neg (by simp [hin]), Profile.stateCode_loadRow]
      exact congrArg (fun t : State => t.accept _) (s.modProfile_congr p rfl)
    · rw [Profile.row_loadRow, pairsOf, Fin.getElem_fin, Vector.getElem_ofFn, Nat.add_comm 2, Nat.add_comm 3]
      rfl
    · exact Profile.row_loadRow_ne ho _
  · have inService : s.profileInService p = true := State.profileInService_of hm hp hin
    refine ⟨exec_clearProfile (fs := []) hs ?_, exec_setProfileParams (fs := []) hs ?_,
      fun pairs hl hb => exec_loadProfileRow (fs := []) hs hl ?_⟩
    · rw [State.reqClearProfile_eq ha, if_pos inService]
      rfl
    · rw [State.reqSetProfileParams_eq ha, if_pos inService]
      rfl
    · obtain ⟨row, hrow⟩ := Row.ofCode_some hb
      rw [State.reqLoadProfileRow_eq ha hrow, if_pos inService]
      rfl

end Sys2Proof.Machine
end

section
/-! Selections: what the dip machine does with a change, in LIVE and outside it, and the bottom of a dip (O33, O34). -/

namespace Sys2Proof.Machine

/-! ### The dip machine (R66, R68) -/

section
variable {s : State} {r : Room}

theorem State.handOn_live (h : (s.room r).path.state = .live) (c : DipChange) :
    s.handOn r c = s.modRoom r fun rm => { rm with dip := rm.dip.hand (rm.isActive c) c } := if_pos h

/-- Outside LIVE a change that is not active already is applied at once (R68). -/
theorem State.handOn_apply (h : (s.room r).path.state ≠ .live) {c : DipChange} (hc : (s.room r).isActive c = false) :
    s.handOn r c = match c with
      | .bank n => (s.modRoom r fun rm => rm.applyChange c).notify r (.bankSwapped (s.room r).bankInService n)
      | _ => s.modRoom r fun rm => rm.applyChange c := by
  rw [State.handOn, if_neg h, if_neg (Bool.eq_false_iff.1 hc)]
  cases c <;> rfl

theorem State.handOn_same (h : (s.room r).path.state ≠ .live) {c : DipChange} (hc : (s.room r).isActive c = true) :
    s.handOn r c = s := by
  rw [State.handOn, if_neg h, if_pos hc]

/-- A change in a room whose dip is IDLE begins a descent, and the active value changes nothing (R66). -/
theorem State.handOn_idle (h : (s.room r).path.state = .live) (hd : (s.room r).dip.stage = .idle) (c : DipChange) :
    s.handOn r c = if (s.room r).isActive c = true then s
      else s.modRoom r fun rm => { rm with dip := { rm.dip.fill c with stage := .descent, step := 0 } } := by
  rw [State.handOn_live h]
  cases ha : (s.room r).isActive c
  · rw [if_neg Bool.false_ne_true]
    exact State.modRoom_congr s r _ _ (by simp only [Dip.hand, hd, ha])
  · rw [if_pos rfl]
    exact State.modRoom_self s r _ (by simp only [Dip.hand, hd, ha])

/-- A change in a descent joins, and the active value empties the slot (R66). -/
theorem State.handOn_descent (h : (s.room r).path.state = .live) (hd : (s.room r).dip.stage = .descent) (c : DipChange) :
    s.handOn r c = s.modRoom r fun rm => { rm with dip := if rm.isActive c = true then rm.dip.empty c else rm.dip.fill c } := by
  rw [State.handOn_live h]
  refine State.modRoom_congr s r _ _ ?_
  cases (s.room r).isActive c <;> simp [Dip.hand, hd]

/-- A change in an ascent sets follow-on, and the active value empties the slot (R66). -/
theorem State.handOn_ascent (h : (s.room r).path.state = .live) (hd : (s.room r).dip.stage = .ascent) (c : DipChange) :
    s.handOn r c = s.modRoom r fun rm => { rm with
      dip := if rm.isActive c = true then rm.dip.empty c else { rm.dip.fill c with followOn := true } } := by
  rw [State.handOn_live h]
  refine State.modRoom_congr s r _ _ ?_
  cases (s.room r).isActive c <;> simp [Dip.hand, hd]

end

/-! ### The three selections as requests (R40, R73, R100) -/

section
variable {s : State} {h : Header} {r : Room} {a : Payload} (hs : s.admits h r)
include hs

theorem exec_selectSource {m : Source} (ha : Source.ofCode a.toNat = some m) :
    exec (.selectSource h [a]) s = .next ((s.handOn r (.source m)).replied h .selectSource .ok []) := by
  refine exec_of_roomWrite rfl hs rfl rfl rfl (by simp) fun e => (congrArg (fun r => s.reqSelectSource r [a]) e).trans ?_
  have code : Source.ofCode (arg [a] 0) = some m := ha
  simp only [State.reqSelectSource, code]
  rfl

theorem exec_selectBank {n : BankName} (ha : BankName.ofCode a.toNat = some n) :
    exec (.selectBank h [a]) s = .next ((s.handOn r (.bank n)).replied h .selectBank .ok []) := by
  refine exec_of_roomWrite rfl hs rfl rfl rfl (by simp) fun e => (congrArg (fun r => s.reqSelectBank r [a]) e).trans ?_
  have code : BankName.ofCode (arg [a] 0) = some n := ha
  simp only [State.reqSelectBank, code]
  rfl

theorem exec_selectFormat {i : Fin 4} (ha : a.toNat = i.val) :
    exec (.selectFormat h [a]) s = .next ((s.selectFormat r i).1.replied h .selectFormat (s.selectFormat r i).2 []) := by
  refine exec_of_roomWrite rfl hs rfl rfl rfl (by simp) fun e => (congrArg (fun r => s.reqSelectFormat r [a]) e).trans ?_
  have code : below 4 (arg [a] 0) = some i := below_of_eq ha
  simp only [State.reqSelectFormat, code]
  rfl

end

/-- A format needs its profile READY (R73). -/
theorem State.selectFormat_notReady {s : State} {r : Room} {i : Fin 4} (hm : (s.room r).formats[i].mode = .mx4)
    (hl : s.profiles[(s.room r).formats[i].profile].loaded ≠ 15#4) : s.selectFormat r i = (s, .wrongState) :=
  if_pos ⟨hm, decide_eq_false hl⟩

theorem State.selectFormat_ready {s : State} {r : Room} {i : Fin 4}
    (h : (s.room r).formats[i].mode = .discrete ∨ s.profiles[(s.room r).formats[i].profile].loaded = 15#4) :
    s.selectFormat r i = (s.handOn r (.format i), .ok) := by
  refine if_neg fun k => ?_
  obtain ⟨hm, hl⟩ := k
  rcases h with h | h
  · rw [h] at hm
    cases hm
  · exact of_decide_eq_false hl h

/-- Settles O33: the requests by the dip machine, and the dip machine by its stage. -/
theorem selectionsInLive : Obligations.SelectionsInLive := by
  have format {s : State} {h : Header} {r : Room} {a : Payload} (hs : s.admits h r) {i : Fin 4} (hi : a.toNat = i.val) :
      ((s.room r).formats[i].mode = .mx4 → s.profiles[(s.room r).formats[i].profile].loaded ≠ 15#4 →
        exec (.selectFormat h [a]) s = .next (s.replied h .selectFormat .wrongState [])) ∧
      ((s.room r).formats[i].mode = .discrete ∨ s.profiles[(s.room r).formats[i].profile].loaded = 15#4 →
        exec (.selectFormat h [a]) s = .next ((s.handOn r (.format i)).replied h .selectFormat .ok [])) := by
    refine ⟨fun hm hl => ?_, fun hr => ?_⟩
    · rw [exec_selectFormat hs hi, State.selectFormat_notReady hm hl]
    · rw [exec_selectFormat hs hi, State.selectFormat_ready hr]
  refine ⟨fun s h r a hs => ⟨fun m => exec_selectSource hs, fun n => exec_selectBank hs, fun i => format hs⟩,
    fun s h r a hs hlive hidle => ⟨fun m hm => ?_, fun n hn => ?_, fun i hi => ⟨(format hs hi).1, fun hr => ?_⟩⟩,
    fun s r i m n hlive => ⟨fun hd => ⟨?_, ?_, ?_⟩, fun hd => ⟨?_, ?_, ?_⟩⟩⟩
  · rw [exec_selectSource hs hm, State.handOn_idle hlive hidle]
    simp only [RoomRec.isActive, decide_eq_true_eq]
    rfl
  · rw [exec_selectBank hs hn, State.handOn_idle hlive hidle]
    simp only [RoomRec.isActive, decide_eq_true_eq]
    rfl
  · rw [(format hs hi).2 hr, State.handOn_idle hlive hidle]
    simp only [RoomRec.isActive, decide_eq_true_eq]
    rfl
  · exact (State.handOn_descent hlive hd _).trans (State.modRoom_congr s r _ _ (by simp only [RoomRec.isActive, decide_eq_true_eq]; split <;> rfl))
  · exact (State.handOn_descent hlive hd _).trans (State.modRoom_congr s r _ _ (by simp only [RoomRec.isActive, decide_eq_true_eq]; split <;> rfl))
  · exact (State.handOn_descent hlive hd _).trans (State.modRoom_congr s r _ _ (by simp only [RoomRec.isActive, decide_eq_true_eq]; split <;> rfl))
  · rw [State.handOn_ascent hlive hd]
    simp only [RoomRec.isActive, decide_eq_true_eq]
    rfl
  · rw [State.handOn_ascent hlive hd]
    simp only [RoomRec.isActive, decide_eq_true_eq]
    rfl
  · rw [State.handOn_ascent hlive hd]
    simp only [RoomRec.isActive, decide_eq_true_eq]
    rfl

/-! ### Changes applied (R67, R74, R101 to R103) -/

theorem RoomRec.entersMx4_iff (rm : RoomRec) (i : Fin 4) :
    rm.entersMx4 i = true ↔ rm.formats[rm.activeFormat].mode = .discrete ∧ rm.formats[i].mode = .mx4 := by
  exact Bool.and_eq_true_iff.trans (and_congr decide_eq_true_iff decide_eq_true_iff)

/-- The swap, field by field (R101, R102). -/
theorem RoomRec.applyBank_eq (rm : RoomRec) (n : BankName) : rm.applyBank n = { rm with
    bankInService := n, histA := .zero, histB := .zero
    ahead := rm.ahead.map fun e => { e with histStands := false }
    conds := Vector.ofFn fun k => { rm.conds[k] with
      onOver := if rm.conds[k].onOver.phase = .raised ∨ rm.conds[k].onOver.phase = .heldAck then rm.conds[k].onOver else .quiet
      onClip := if rm.conds[k].onClip.phase = .raised ∨ rm.conds[k].onClip.phase = .heldAck then rm.conds[k].onClip
        else .quiet } } := by
  simp only [RoomRec.applyBank, RoomRec.requietSwap, RoomRec.zeroHistory, Cond.requiet_eq]
  rfl

/-- A filled format slot names an entry into MX4 exactly when the entry that the bottom puts in force is one. -/
theorem RoomRec.fmtSlot_entersMx4 (rm : RoomRec) :
    rm.dip.fmtSlot.any rm.entersMx4 = rm.entersMx4 (rm.dip.fmtSlot.getD rm.activeFormat) := by
  cases rm.dip.fmtSlot with
  | none => exact rm.entersMx4_active.symm
  | some i => rfl

/-- The bottom of a dip, field by field (R67, R74, R101). -/
theorem RoomRec.bottom_eq (rm : RoomRec) :
    let fmt := rm.dip.fmtSlot.getD rm.activeFormat
    let src := rm.dip.srcSlot.getD rm.activeSource
    rm.bottom = { rm with
      activeFormat := fmt
      activeSource := src
      bankInService := rm.dip.bankSlot.getD rm.bankInService
      dip := { rm.dip with stage := .ascent, step := 0, fmtSlot := none, srcSlot := none, bankSlot := none }
      tc := rm.tc.switch (rm.mapOf rm.activeSource).tc (rm.mapOf src).tc
      decode := if rm.entersMx4 fmt then .zero else rm.decode
      ahead := rm.ahead.map fun e => { e with
        histStands := if rm.dip.bankSlot = none then e.histStands else false
        decode := if rm.entersMx4 fmt then .zero else e.decode
        decodeStands := if rm.entersMx4 fmt then true else e.decodeStands }
      histA := if rm.dip.bankSlot = none then rm.histA else .zero
      histB := if rm.dip.bankSlot = none then rm.histB else .zero
      conds := if rm.dip.bankSlot = none then rm.conds else Vector.ofFn fun k => { rm.conds[k] with
        onOver := if rm.conds[k].onOver.phase = .raised ∨ rm.conds[k].onOver.phase = .heldAck then rm.conds[k].onOver else .quiet
        onClip := if rm.conds[k].onClip.phase = .raised ∨ rm.conds[k].onClip.phase = .heldAck then rm.conds[k].onClip
          else .quiet } } := by
  dsimp only
  unfold RoomRec.bottom RoomRec.applySlots
  dsimp only
  rw [RoomRec.applyFormat_slot, RoomRec.fmtSlot_entersMx4]
  generalize rm.entersMx4 (rm.dip.fmtSlot.getD rm.activeFormat) = m
  rcases rm with ⟨_, _, _, _, _, _, _, _, _, _, ⟨_, _, _, fmt, src, bank, _⟩, _, _, _, _, _, _, _, _, _, _, _, _, _, _, _, _, _, _, _, ahead⟩
  cases src <;> cases bank <;> cases ahead <;> cases m <;>
    simp [RoomRec.applySource, RoomRec.applyBank_eq, RoomRec.emptySlots, RoomRec.activeMap, RoomRec.mapOf, Early.fromZero]

theorem State.dipBottom_eq (s : State) (r : Room) : s.dipBottom r = match (s.room r).dip.bankSlot with
    | none => s.modRoom r RoomRec.bottom
    | some n => (s.modRoom r RoomRec.bottom).notify r (.bankSwapped (s.room r).bankInService n) := by
  unfold State.dipBottom RoomRec.swapBody
  cases (s.room r).dip.bankSlot <;> rfl

/-- Settles O34: each change field by field. -/
theorem selectionsApplied : Obligations.SelectionsApplied := by
  refine ⟨fun s r h => ⟨fun m hm => ?_, fun i hi => ?_, fun n hn => ?_, fun c => State.handOn_same h⟩, fun s r hopen hstage hstep => ?_⟩
  · exact State.handOn_apply (c := .source m) h (decide_eq_false hm)
  · rw [State.handOn_apply (c := .format i) h (decide_eq_false hi)]
    refine State.modRoom_congr s r _ _ ?_
    have enters := (s.room r).entersMx4_iff i
    show (s.room r).applyFormat i = _
    unfold RoomRec.applyFormat
    by_cases he : (s.room r).entersMx4 i = true
    · simp only [he, if_pos (enters.1 he), if_true]
      rfl
    · simp only [if_neg he, if_neg (mt enters.2 he)]
  · rw [State.handOn_apply (c := .bank n) h (decide_eq_false hn)]
    exact congrArg (fun t : State => t.notify r _) (State.modRoom_congr s r _ _ ((s.room r).applyBank_eq n))
  · have due : State.bottomDue r s = true := decide_eq_true ⟨hstage, hstep⟩
    have applied : s.modRoom r RoomRec.bottom = _ := State.modRoom_congr s r _ (fun _ => _) (s.room r).bottom_eq
    have course : exec (.dipBottom r) s = .next (s.dipBottom r) := by
      show Host.Outcome.next (s.takeDue _ _) = _
      rw [State.takeDue_of_open hopen, State.force, if_pos due]
    rw [course, State.dipBottom_eq, applied]
    simp only [RoomRec.entersMx4_iff] <;> rfl

end Sys2Proof.Machine
end

section
/-! Loads of a room's tables and the processing budget: format entries (O35), banks (O36, O37) and the demand (O39). -/

namespace Sys2Proof.Machine

/-! ### Charges (R109, R115) -/

theorem RoomRec.decodeTerm_of_mx4 {rm : RoomRec} {i : Fin 4} (h : rm.formats[i].mode = .mx4) : rm.decodeTerm = 40 :=
  if_pos (List.any_eq_true.2 ⟨i, List.mem_finRange i, decide_eq_true h⟩)

theorem RoomRec.decodeTerm_of_discrete {rm : RoomRec} (h : ∀ i : Fin 4, rm.formats[i].mode = .discrete) : rm.decodeTerm = 0 :=
  if_neg fun k => by
    obtain ⟨i, -, hi⟩ := List.any_eq_true.1 k
    rw [h i] at hi
    cases of_decide_eq_true hi

/-- What a room in service needs: its decode term and the bank in service. -/
theorem RoomRec.inService_le_charge (rm : RoomRec) : rm.decodeTerm + (rm.bank rm.bankInService).active ≤ rm.charge := by
  unfold RoomRec.charge RoomRec.sectionTerm RoomRec.bank
  cases rm.bankInService <;> dsimp only <;> omega

/-- With a standby bank that counts no more than the bank in service the latter alone is charged. -/
theorem RoomRec.charge_standby {rm : RoomRec} {n : BankName} {b : Bank} (hn : rm.bankInService ≠ n)
    (hb : b.active ≤ (rm.bank rm.bankInService).active) :
    (rm.setBank n b).charge = rm.decodeTerm + (rm.bank rm.bankInService).active := by
  have term : (rm.setBank n b).decodeTerm = rm.decodeTerm := by cases n <;> rfl
  have both : (rm.setBank n b).sectionTerm = max b.active (rm.bank rm.bankInService).active := by
    unfold RoomRec.bank
    cases n <;> cases hs : rm.bankInService
    · exact absurd hs hn
    · rfl
    · exact max_comm _ _
    · exact absurd hs hn
  rw [RoomRec.charge, term, both, max_eq_right hb]

theorem RoomRec.demandNow_le_charge (rm : RoomRec) : rm.demandNow ≤ rm.charge := by
  have needed := rm.inService_le_charge
  have term : (if rm.entry.mode = .mx4 then Config.decodeCost else 0) ≤ rm.decodeTerm := by
    split
    · next hm => exact (RoomRec.decodeTerm_of_mx4 (i := rm.activeFormat) hm).ge
    · exact Nat.zero_le _
  unfold RoomRec.demandNow
  split
  · omega
  · exact Nat.zero_le _

/-- Settles O39: the demand of each room is part of its charge. -/
theorem demandWithinBudget : Obligations.DemandWithinBudget := by
  intro s h
  obtain ⟨hroom, htotal, hle⟩ := h
  have each (r : Room) : (s.room r).demandNow ≤ (s.room r).commitment := (hroom r).2.2 ▸ (s.room r).demandNow_le_charge
  have all : ((List.finRange 12).map fun r => (s.room r).demandNow).sum ≤ s.committedTotal :=
    htotal ▸ List.sum_le_sum fun r _ => each r
  exact ⟨each, all, all.trans hle⟩

/-! ### Accepted and refused loads (R111 to R113) -/

theorem State.overBudget_iff (s : State) (r : Room) (c : Nat) : s.overBudget r c = true ↔
    1280 < s.committedTotal + c - (s.room r).commitment ∧ s.committedTotal < s.committedTotal + c - (s.room r).commitment :=
  decide_eq_true_iff

theorem State.loadFields_commitLoad (s : State) (r : Room) (rm : RoomRec) : (s.commitLoad r rm).loadFields r =
    [.bits 8 rm.charge, .bits 11 (s.committedTotal + rm.charge - (s.room r).commitment)] := by
  have room : (s.commitLoad r rm).room r = { rm with commitment := rm.charge } := State.room_modRoom_self s r fun _ => { rm with commitment := rm.charge }
  rw [State.loadFields, room]
  rfl

/-- A load that lowers the commitment is never refused for the budget (R112). -/
theorem State.not_overBudget {s : State} {r : Room} {c : Nat} (h : c ≤ (s.room r).commitment) : s.overBudget r c = false := by
  refine Bool.eq_false_iff.2 fun k => ?_
  have above := (s.overBudget_iff r c).1 k
  omega

/-! ### SET_FORMAT_ENTRY (R71, R72) -/

section
variable {s : State} {r : Room} {i : Fin 4} {e : FormatEntry} {body : List Payload}

theorem entryOf_eq (hm : Mode.ofCode (arg body 1) = some e.mode) (hp : arg body 2 = e.profile.val)
    (hk : ∀ k : Chan, OutSrc.ofCode (arg body (3 + k.val)) = some e.map[k])
    (hd : e.mode = .discrete → ∀ (k : Chan) (o : DecOut), e.map[k] ≠ .decode o) : entryOf body = some e := by
  have agree : ¬(e.mode = .discrete ∧ e.map.toList.any (fun x => match x with | .decode _ => true | _ => false) = true) := by
    rintro ⟨hm, hany⟩
    obtain ⟨x, hx, hdec⟩ := List.any_eq_true.1 hany
    obtain ⟨k, hk, rfl⟩ := List.mem_iff_getElem.1 hx
    have hk : k < 16 := by simpa using hk
    have value := hd hm ⟨k, hk⟩
    rw [Vector.getElem_toList] at hdec
    split at hdec
    · next o ho => exact value o ho
    · cases hdec
  simp only [entryOf, hm, below_of_eq hp, decodeAll_eq hk, vecOf_toList]
  exact if_neg agree

theorem State.reqSetFormatEntry_eq (hi : arg body 0 = i.val) (he : entryOf body = some e) : s.reqSetFormatEntry r body =
    if (s.room r).entryInService i then s.refuse .inService
    else if s.overBudget r ((s.room r).writeEntry i e).charge then
      s.refuseWith .overBudget (s.budgetFields r ((s.room r).writeEntry i e).charge)
    else (s.commitLoad r ((s.room r).writeEntry i e)).accept ((s.commitLoad r ((s.room r).writeEntry i e)).loadFields r) := by
  simp only [State.reqSetFormatEntry, below_of_eq hi, he]

theorem RoomRec.entryInService_iff (rm : RoomRec) (i : Fin 4) :
    rm.entryInService i = true ↔ rm.activeFormat = i ∧ rm.path.state ≠ .off ∨ rm.dip.fmtSlot = some i :=
  Bool.or_eq_true_iff.trans (or_congr decide_eq_true_iff decide_eq_true_iff)

end

/-- Settles O35: by the service of the entry and the budget. -/
theorem formatEntryWritten : Obligations.FormatEntryWritten := by
  refine ⟨fun s h r i e body hs hlen hi hm hp hk hd => ?_, fun rm => ⟨fun hm => ?_, RoomRec.decodeTerm_of_discrete, rfl⟩⟩
  · have course {u : State} {res : Result} {fs : List Fld} (hq : s.reqSetFormatEntry r body = (u, res, pack fs)) :
        exec (.setFormatEntry h body) s = .next (u.replied h .setFormatEntry res fs) :=
      exec_of_roomWrite rfl hs rfl rfl (beq_iff_eq.2 hlen) (by omega) fun e => (congrArg (fun r => s.reqSetFormatEntry r body) e).trans hq
    have rule := State.reqSetFormatEntry_eq (s := s) (r := r) hi (entryOf_eq hm hp hk hd)
    have service := (s.room r).entryInService_iff i
    refine ⟨fun hin => course (fs := []) (rule.trans (if_pos (service.2 hin))), fun hoff hslot => ⟨fun hle => ?_, fun hb ht => ?_⟩⟩
    · have standby := rule.trans (if_neg (mt service.1 (not_or.2 ⟨hoff, hslot⟩)))
      refine course (standby.trans ((if_neg fun k => ?_).trans ?_))
      · have above := (s.overBudget_iff r _).1 k
        exact absurd hle (not_or.2 ⟨Nat.not_le.2 above.1, Nat.not_le.2 above.2⟩)
      · rw [State.loadFields_commitLoad]
        rfl
    · have standby := rule.trans (if_neg (mt service.1 (not_or.2 ⟨hoff, hslot⟩)))
      exact course (standby.trans (if_pos ((s.overBudget_iff r _).2 ⟨hb, ht⟩)))
  · obtain ⟨i, hi⟩ := hm
    exact RoomRec.decodeTerm_of_mx4 hi

end Sys2Proof.Machine
end

section
/-! The loads of a standby bank (O36, O37). -/

namespace Sys2Proof.Machine

/-! ### Checks of a load (R92) -/

theorem RoomRec.bankCheck_standby {rm : RoomRec} {n : BankName} (hn : rm.bankInService ≠ n) (hd : rm.dip.bankSlot ≠ some n) :
    rm.bankCheck n = none := by
  rw [RoomRec.bankCheck, if_neg hn, if_neg hd]

theorem RoomRec.bankCheck_refused {rm : RoomRec} {n : BankName} {res : Result}
    (h : (rm.bankInService = n ∧ res = .inService) ∨ (rm.bankInService ≠ n ∧ rm.dip.bankSlot = some n ∧ res = .bankBusy)) :
    rm.bankCheck n = some res := by
  rcases h with ⟨hn, rfl⟩ | ⟨hn, hd, rfl⟩
  · exact if_pos hn
  · rw [RoomRec.bankCheck, if_neg hn, if_pos hd]

/-! ### The course of a load -/

section
variable {s u : State} {h : Header} {r : Room} {res : Result} {fs : List Fld} (hs : s.admits h r)
include hs

theorem exec_setTrims {a : Payload} {trims : List Payload} (hl : trims.length = 16)
    (hq : s.reqSetTrims r (a :: trims) = (u, res, pack fs)) :
    exec (.setTrims h (a :: trims)) s = .next (u.replied h .setTrims res fs) :=
  exec_of_roomWrite rfl hs rfl rfl (by simp [Kind.lengthOk, hl]) (by simp [hl]) fun e =>
    (congrArg (fun r => s.reqSetTrims r (a :: trims)) e).trans hq

theorem exec_clearBank {a : Payload} (hq : s.reqClearBank r [a] = (u, res, pack fs)) :
    exec (.clearBank h [a]) s = .next (u.replied h .clearBank res fs) :=
  exec_of_roomWrite rfl hs rfl rfl rfl (by simp) fun e => (congrArg (fun r => s.reqClearBank r [a]) e).trans hq

theorem exec_copyBank {a : Payload} (hq : s.reqCopyBank r [a] = (u, res, pack fs)) :
    exec (.copyBank h [a]) s = .next (u.replied h .copyBank res fs) :=
  exec_of_roomWrite rfl hs rfl rfl rfl (by simp) fun e => (congrArg (fun r => s.reqCopyBank r [a]) e).trans hq

theorem exec_loadSections {body : List Payload} (h4 : 4 ≤ body.length) (hl : body.length = 4 + 5 * arg body 3) (hc : arg body 3 ≤ 8)
    (hq : s.reqLoadSections r body = (u, res, pack fs)) :
    exec (.loadSections h body) s = .next (u.replied h .loadSections res fs) :=
  exec_of_roomWrite rfl hs rfl rfl (by simp [Kind.lengthOk, ← hl, h4]) (by omega) fun e =>
    (congrArg (fun r => s.reqLoadSections r body) e).trans hq

end

/-! ### The rules of the loads (R93 to R97) -/

section
variable {s : State} {r : Room} {n : BankName}

/-- The bank with trims given by a list (R95). -/
theorem State.reqSetTrims_eq {a : Payload} {trims : List Payload} (hn : BankName.ofCode a.toNat = some n) (hl : trims.length = 16) :
    s.reqSetTrims r (a :: trims) = match (s.room r).bankCheck n with
      | some res => s.refuse res
      | none => (s.modRoom r fun rm =>
          rm.setBank n (((s.room r).bank n).withTrims fun k => min 131071 (trims.getD k.val 0).toNat)).accept
        ((trims.map fun x => .bits 17 (min 131071 x.toNat)) ++
            [.bits 8 (s.room r).commitment, .bits 11 s.committedTotal]) := by
  have code : BankName.ofCode (arg (a :: trims) 0) = some n := hn
  have trim (k : Nat) : trimArg (a :: trims) k = min 131071 (trims.getD k 0).toNat := by
    rw [trimArg, arg, Nat.add_comm, List.getD_cons_succ]
    rfl
  have values : ((List.range 16).map fun k => Fld.bits 17 (trimArg (a :: trims) k)) = trims.map fun x => .bits 17 (min 131071 x.toNat) := by
    refine List.ext_getElem (by simp [hl]) fun k hk hk' => ?_
    have hk' : k < trims.length := by simpa using hk'
    simp [trim, hk']
  have fields (bk : Bank) : (s.modRoom r fun rm => rm.setBank n bk).loadFields r =
      [.bits 8 (s.room r).commitment, .bits 11 s.committedTotal] := by
    rw [State.loadFields, State.room_modRoom_self, RoomRec.setBank_commitment]
    rfl
  simp only [State.reqSetTrims, code, values, fields]
  cases (s.room r).bankCheck n
  · simp only [trim]
    rfl
  · rfl

theorem State.reqClearBank_eq {a : Payload} (hn : BankName.ofCode a.toNat = some n) : s.reqClearBank r [a] =
    match (s.room r).bankCheck n with
    | some res => s.refuse res
    | none =>
      if s.overBudget r ((s.room r).setBank n .cleared).charge then
        s.refuseWith .overBudget (s.budgetFields r ((s.room r).setBank n .cleared).charge)
      else (s.commitLoad r ((s.room r).setBank n .cleared)).accept ((s.commitLoad r ((s.room r).setBank n .cleared)).loadFields r) := by
  have code : BankName.ofCode (arg [a] 0) = some n := hn
  simp only [State.reqClearBank, code] <;> rfl

/-- A room's record with the bank in service copied to bank `n` (R97). -/
def RoomRec.copied (rm : RoomRec) (n : BankName) : RoomRec := rm.setBank n (rm.bank rm.bankInService)

theorem State.reqCopyBank_eq {a : Payload} (hn : BankName.ofCode a.toNat = some n) : s.reqCopyBank r [a] =
    match (s.room r).bankCheck n with
    | some res => s.refuse res
    | none =>
      if s.overBudget r ((s.room r).copied n).charge then s.refuseWith .overBudget (s.budgetFields r ((s.room r).copied n).charge)
      else (s.commitLoad r ((s.room r).copied n)).accept
        (.bits 8 ((s.room r).bank (s.room r).bankInService).active :: .bits 8 ((s.room r).bank (s.room r).bankInService).rejected ::
          (s.commitLoad r ((s.room r).copied n)).loadFields r) := by
  have code : BankName.ofCode (arg [a] 0) = some n := hn
  simp only [State.reqCopyBank, code] <;> rfl

theorem State.reqLoadSections_eq {body : List Payload} {c : Chan} (hn : BankName.ofCode (arg body 0) = some n) (hc : arg body 1 = c.val)
    (h1 : 1 ≤ arg body 2) (h2 : 1 ≤ arg body 3) (h3 : arg body 2 + arg body 3 ≤ 9) : s.reqLoadSections r body =
    let bk := ((s.room r).bank n).load c body (arg body 2) (arg body 3)
    let rm := (s.room r).setBank n bk
    match (s.room r).bankCheck n with
    | some res => s.refuse res
    | none =>
      if s.overBudget r rm.charge then
        s.refuseWith .overBudget (tagFields (loadTags body (arg body 3)) ++ .bits 8 bk.active :: s.budgetFields r rm.charge)
      else (s.commitLoad r rm).accept
        (tagFields (loadTags body (arg body 3)) ++ .bits 8 bk.active :: .bits 8 bk.rejected :: (s.commitLoad r rm).loadFields r) := by
  have fits : ¬(arg body 2 = 0 ∨ 8 < arg body 2 ∨ arg body 3 = 0 ∨ 8 < arg body 3 ∨ 9 < arg body 2 + arg body 3) := by omega
  simp only [State.reqLoadSections, hn, below_of_eq hc, if_neg fits] <;> rfl

end

/-- A load that leaves the bank in service the larger one of the two is accepted, and the room is charged for that bank alone
(R110, R112). -/
theorem State.commitLoad_standby {s : State} {r : Room} {n : BankName} {b : Bank} (h : s.budgetOk) (hn : (s.room r).bankInService ≠ n)
    (hb : b.active ≤ ((s.room r).bank (s.room r).bankInService).active) :
    let c := ((s.room r).setBank n b).charge
    s.overBudget r c = false ∧ c ≤ (s.room r).commitment ∧
      s.committedTotal + c - (s.room r).commitment = s.committedTotal - ((s.room r).commitment - c) := by
  obtain ⟨hroom, htotal, -⟩ := h
  have le : ((s.room r).setBank n b).charge ≤ (s.room r).commitment := by
    rw [RoomRec.charge_standby hn hb, (hroom r).2.2]
    exact (s.room r).inService_le_charge
  have part : (s.room r).commitment ≤ s.committedTotal := htotal ▸ s.commitment_le r
  exact ⟨State.not_overBudget le, le, by omega⟩

/-- Settles O36: by the checks of R92, and by the charge of the bank in service. -/
theorem bankLoadsJudged : Obligations.BankLoadsJudged := by
  refine ⟨fun s h r a n hs hb hn hin hd => ⟨fun trims hl => ?_, fun k hk => ?_⟩, fun s h r a n res hs hn hres => ⟨?_, ?_, fun trims hl => ?_,
    fun b c d coefs h1 h2 h3 h4 hl => ?_⟩⟩
  · refine ⟨((s.room r).bank n).withTrims fun k => min 131071 (trims.getD k.val 0).toNat, exec_setTrims hs hl ?_, rfl, rfl, fun k => ?_⟩
    · rw [State.reqSetTrims_eq hn hl, RoomRec.bankCheck_standby hin hd]
      rfl
    · simp only [Bank.withTrims, Fin.getElem_fin, Vector.getElem_ofFn]
  · rcases hk with rfl | rfl
    · have empty : Bank.cleared.active ≤ ((s.room r).bank (s.room r).bankInService).active := Nat.zero_le _
      obtain ⟨fits, le, total⟩ := State.commitLoad_standby hb hin empty
      refine ⟨_, _, exec_clearBank hs ?_, RoomRec.charge_standby hin empty, le, rfl⟩
      rw [State.reqClearBank_eq hn, RoomRec.bankCheck_standby hin hd]
      dsimp only
      rw [fits, State.loadFields_commitLoad, total, if_neg Bool.false_ne_true, ← total]
      rfl
    · obtain ⟨fits, le, total⟩ := State.commitLoad_standby hb hin le_rfl
      refine ⟨_, _, exec_copyBank hs ?_, RoomRec.charge_standby hin le_rfl, le, rfl⟩
      rw [State.reqCopyBank_eq hn, RoomRec.bankCheck_standby hin hd]
      dsimp only
      rw [RoomRec.copied, fits, State.loadFields_commitLoad, total, if_neg Bool.false_ne_true, ← total]
      rfl
  · refine exec_clearBank (fs := []) hs ?_
    rw [State.reqClearBank_eq hn, RoomRec.bankCheck_refused hres]
    rfl
  · refine exec_copyBank (fs := []) hs ?_
    rw [State.reqCopyBank_eq hn, RoomRec.bankCheck_refused hres]
    rfl
  · refine exec_setTrims (fs := []) hs hl ?_
    rw [State.reqSetTrims_eq hn hl, RoomRec.bankCheck_refused hres]
    rfl
  · have count : arg (a :: b :: c :: d :: coefs) 3 = d.toNat := rfl
    have first : arg (a :: b :: c :: d :: coefs) 2 = c.toNat := rfl
    refine exec_loadSections (fs := []) hs (by simp) (by simp [count, hl]; omega) (by omega) ?_
    rw [State.reqLoadSections_eq (n := n) (c := ⟨b.toNat, by omega⟩) (body := a :: b :: c :: d :: coefs) hn rfl (first ▸ h2) (count ▸ h3) (by omega),
      RoomRec.bankCheck_refused hres]
    rfl

/-! ### LOAD_SECTIONS (R89, R90, R93, R94) -/

theorem sum_map_ite_eq_countP {α : Type} (p : α → Prop) [DecidablePred p] :
    ∀ l : List α, (l.map fun x => if p x then 1 else 0).sum = l.countP fun x => decide (p x)
  | [] => rfl
  | a :: l => by
    rw [List.map_cons, List.sum_cons, sum_map_ite_eq_countP p l, List.countP_cons, Nat.add_comm]
    simp only [decide_eq_true_eq]

/-- The count of a tag is the number of the slots that have it (R90). -/
theorem countTags_eq_card (tag : Tag) (chans : Vector ChanEq 16) :
    countTags tag chans = (Finset.univ.filter fun x : Chan × Fin 8 => chans[x.1].slots[x.2].tag = tag).card := by
  rw [Finset.card_filter, Fintype.sum_prod_type, Fin.sum_univ_def]
  simp only [Fin.sum_univ_def, sum_map_ite_eq_countP]
  rfl

theorem Bank.load_chan (bk : Bank) (c : Chan) (body : List Payload) (first count : Nat) :
    (bk.load c body first count).chans[c] = bk.chans[c].load body first count := by
  simp [Bank.load, Bank.ofChans]

theorem Bank.load_chan_ne (bk : Bank) {c k : Chan} (h : k ≠ c) (body : List Payload) (first count : Nat) :
    (bk.load c body first count).chans[k] = bk.chans[k] := by
  have ne : (c : Nat) ≠ k := fun e => h (Fin.ext e.symm)
  simp [Bank.load, Bank.ofChans, Vector.getElem_set_ne, ne]

/-- Settles O37: by the bank that the load makes, and the budget. -/
theorem sectionsLoaded : Obligations.SectionsLoaded := by
  refine ⟨fun s h r n c body hs h4 hl hn hc h1 h2 h3 hin hd => ?_, countTags_eq_card, fun b => .rfl, fun body j => ?_, fun tags => ?_⟩
  · have rule := State.reqLoadSections_eq (s := s) (r := r) hn hc h1 h2 h3
    rw [RoomRec.bankCheck_standby hin hd] at rule
    refine ⟨((s.room r).bank n).load c body (arg body 2) (arg body 3), ⟨fun hle => ?_, fun hb ht => ?_⟩, ⟨rfl, rfl⟩,
      fun k hk => Bank.load_chan_ne _ hk body _ _, ?_, fun i => ?_⟩
    · refine exec_loadSections hs h4 hl (by omega) (rule.trans ((if_neg fun k => ?_).trans ?_))
      · have above := (s.overBudget_iff r _).1 k
        exact absurd hle (not_or.2 ⟨Nat.not_le.2 above.1, Nat.not_le.2 above.2⟩)
      · rw [State.loadFields_commitLoad]
        rfl
    · exact exec_loadSections hs h4 hl (by omega) (rule.trans (if_pos ((s.overBudget_iff r _).2 ⟨hb, ht⟩)))
    · rw [Bank.load_chan]
      rfl
    · rw [Bank.load_chan]
      simp only [ChanEq.load, Fin.getElem_fin, Vector.getElem_ofFn]
  · simp only [coefsAt, coefArg, show 5 + 5 * j = 4 + 5 * j + 1 by omega, show 6 + 5 * j = 4 + 5 * j + 2 by omega,
      show 7 + 5 * j = 4 + 5 * j + 3 by omega, show 8 + 5 * j = 4 + 5 * j + 4 by omega]
    rfl
  · refine congrArg (Fld.bits 4 tags.length :: ·) (List.map_congr_left fun t _ => ?_)
    cases t <;> rfl

end Sys2Proof.Machine
end

section
/-! Alarms: the judgement of conditions and the list (O41), the tables (O42) and the acknowledgement (O43). -/

namespace Sys2Proof.Machine

/-! ### The list at a raising (R131) -/

section
variable {r : Room} {x : CondId} {blk : BitVec 32} {p : Nat} {pre post l : List AlarmEntry} {e : AlarmEntry}

theorem AlarmEntry.is_false {d : AlarmEntry} (h : ¬(d.room = r ∧ d.cond = x)) : d.is r x = false := decide_eq_false h

theorem AlarmEntry.find_none (h : ∀ d ∈ l, ¬(d.room = r ∧ d.cond = x)) : l.find? (·.is r x) = none :=
  List.find?_eq_none.2 fun d hd => by simp [AlarmEntry.is_false (h d hd)]

/-- An entry of the condition is raised again in its place. -/
theorem raiseList_again (h : ∀ d ∈ pre ++ post, ¬(d.room = r ∧ d.cond = x)) (hr : e.room = r) (hx : e.cond = x) :
    raiseList (pre ++ e :: post) r x blk p = (pre ++ e.again blk p :: post, some (min 255 (e.count + 1))) := by
  have here : e.is r x = true := decide_eq_true ⟨hr, hx⟩
  have before (d) (hd : d ∈ pre) : d.is r x = false := AlarmEntry.is_false (h d (List.mem_append_left _ hd))
  have after (d) (hd : d ∈ post) : d.is r x = false := AlarmEntry.is_false (h d (List.mem_append_right _ hd))
  have found : (pre ++ e :: post).find? (·.is r x) = some e := by
    rw [List.find?_append, List.find?_eq_none.2 fun d hd => by simp [before d hd]]
    simp [here]
  have keep (q : List AlarmEntry) (hq : ∀ d ∈ q, d.is r x = false) :
      (q.map fun d : AlarmEntry => if d.is r x then d.again blk p else d) = q := by
    refine (List.map_congr_left fun d hd => ?_).trans q.map_id
    simp [hq d hd]
  simp only [raiseList, found, List.map_append, List.map_cons, keep pre before, keep post after, here, if_true]

theorem raiseList_room (h : ∀ d ∈ l, ¬(d.room = r ∧ d.cond = x)) (hl : l.length < 48) :
    raiseList l r x blk p = (l ++ [.first r x blk p], some 1) := by
  simp only [raiseList, AlarmEntry.find_none h]
  exact if_pos hl

/-- A full list gives up its oldest CLEARED entry. -/
theorem raiseList_full (h : ∀ d ∈ pre ++ e :: post, ¬(d.room = r ∧ d.cond = x)) (hl : 48 ≤ (pre ++ e :: post).length)
    (hp : ∀ d ∈ pre, d.active = true) (he : e.active = false) :
    raiseList (pre ++ e :: post) r x blk p = (pre ++ post ++ [.first r x blk p], some 1) := by
  have oldest : (pre ++ e :: post).findIdx? (fun d => !d.active) = some pre.length := by
    rw [List.findIdx?_append, List.findIdx?_eq_none_iff.2 fun d hd => by simp [hp d hd]]
    simp [List.findIdx?_cons, he]
  have erased : (pre ++ e :: post).eraseIdx pre.length = pre ++ post := by
    rw [List.eraseIdx_append_of_length_le le_rfl]
    simp
  simp only [raiseList, AlarmEntry.find_none h, oldest, erased]
  exact if_neg (Nat.not_lt.2 hl)

theorem raiseList_unlisted (h : ∀ d ∈ l, ¬(d.room = r ∧ d.cond = x)) (hl : 48 ≤ l.length) (ha : ∀ d ∈ l, d.active = true) :
    raiseList l r x blk p = (l, none) := by
  have oldest : l.findIdx? (fun d => !d.active) = none := List.findIdx?_eq_none_iff.2 fun d hd => by simp [ha d hd]
  simp only [raiseList, AlarmEntry.find_none h, oldest]
  exact if_neg (Nat.not_lt.2 hl)

end

/-! ### The judgement (R125, R133) -/

theorem RoomRec.putCond_cond (rm : RoomRec) (x : CondId) : rm.putCond x (rm.cond x) = rm := by
  cases x with
  | rack => rfl
  | level c k =>
    have put : rm.conds[c].put k (rm.conds[c].get k) = rm.conds[c] := by cases k <;> rfl
    show { rm with conds := rm.conds.set c.val (rm.conds[c].put k (rm.conds[c].get k)) c.isLt } = rm
    rw [put]
    simp

theorem State.modRoom_putCond_same (s : State) (r : Room) {x : CondId} {v : Cond} (h : v = (s.room r).cond x) :
    (s.modRoom r fun rm => rm.putCond x v) = s :=
  State.modRoom_self s r _ (h ▸ (s.room r).putCond_cond x)

section
variable {s : State} {r : Room} {x : CondId} {hold p n : Nat} {l : List CondId} {truth : Bool}

theorem State.judge_raises (h : ((s.room r).cond x).raises truth hold = true) :
    State.judge r x truth hold p n (s, l) = (s.raiseCond r x p n, l ++ [x]) := if_pos h

theorem State.judge_clears (h : ((s.room r).cond x).phase = .raised) :
    State.judge r x false hold p n (s, l) = (s.clearCond r x, l) := if_pos ⟨h, rfl⟩

theorem State.judge_moves (h : ((s.room r).cond x).raises truth hold = false)
    (hc : ¬(((s.room r).cond x).phase = .raised ∧ truth = false)) : State.judge r x truth hold p n (s, l) =
      (s.modRoom r fun rm => rm.putCond x (((s.room r).cond x).move truth), l) := by
  simp only [State.judge, h, if_neg hc]
  rfl

end

/-! ### What a raising and a clearing do (R131 to R134) -/

theorem RoomRec.putCond_frame (rm : RoomRec) (x : CondId) (v : Cond) :
    rm.putCond x v = { rm with conds := (rm.putCond x v).conds, rackCond := (rm.putCond x v).rackCond } := by
  cases x <;> rfl

theorem RoomRec.snapshot_putCond (rm : RoomRec) (x : CondId) (v : Cond) (k : BitVec 16) :
    ({ rm.putCond x v with unlisted := k } : RoomRec).snapshot = rm.snapshot := by
  cases x <;> rfl

theorem State.raiseCond_mgmt (s : State) (r : Room) (x : CondId) (p n : Nat) :
    let out := raiseList s.alarms r x s.blockNumber p
    let who := some (r, (s.room r).snapshot)
    (s.raiseCond r x p n).mgmt = if out.2 = none then
        (s.mgmt.raise who (.alarmRaised x p n none)).raise who (.alarmListFull x ((s.room r).unlisted + 1))
      else s.mgmt.raise who (.alarmRaised x p n out.2) := by
  dsimp only
  unfold State.raiseCond
  generalize raiseList s.alarms r x s.blockNumber p = out
  obtain ⟨alarms, count⟩ := out
  have room (f : RoomRec → RoomRec) : (({ s with alarms := alarms } : State).modRoom r f).room r = f (s.room r) :=
    State.room_modRoom_self _ r f
  cases count
  · simp only [Option.isNone_none, if_true, State.notify_mgmt, State.notify_room, room, RoomRec.snapshot_putCond]
    rfl
  · simp only [Option.isNone_some, Bool.false_eq_true, if_false, State.notify_mgmt, room, RoomRec.snapshot_putCond]
    rfl

theorem Option.isNone_eq_decide {α : Type} [DecidableEq α] (o : Option α) : o.isNone = decide (o = none) := by
  cases o <;> simp

/-- A notice after one that found room. -/
theorem Mgmt.raise_raise {m : Mgmt} (h : m.notices.length ≤ 30) (who : Option (Room × Snapshot)) (a b : NoticeBody) :
    (m.raise who a).raise who b =
      { m with notices := m.notices ++ [⟨who, a, m.dropCount⟩, ⟨who, b, 0⟩], dropCount := 0 } := by
  rw [Mgmt.raise_of_lt m who a (by omega), Mgmt.raise_of_lt _ who b (by simp; omega)]
  simp

/-- Settles O41: the judgement by its cases, the list by the place of the condition's entry, and the two effects field by field. -/
theorem alarmConditionsJudged : Obligations.AlarmConditionsJudged := by
  refine ⟨fun s r x hold p n l => ?_, fun pre post l e r x blk p => ⟨raiseList_again, raiseList_room, raiseList_full, raiseList_unlisted⟩,
    fun s r x p n => ?_, fun s r x => ?_⟩
  · refine ⟨fun h hh => ?_, fun h hh => ?_, fun h hh => ?_, fun h hh => ?_, fun h => ?_, State.judge_clears, fun h => ?_⟩
    · exact State.judge_raises (by simp [Cond.raises, h, hh])
    · rw [State.judge_moves (by simp [Cond.raises, h, hh]) (by simp)]
      simp only [Cond.move, h]
    · exact State.judge_raises (by simp [Cond.raises, h, hh])
    · rw [State.judge_moves (by simp [Cond.raises, h, hh]) (by simp)]
      simp only [Cond.move, h]
    · have stays : ((s.room r).cond x).move true = (s.room r).cond x := by
        rcases h with h | h <;> simp only [Cond.move, h]
      have low : ((s.room r).cond x).raises true hold = false := by
        rcases h with h | h <;> simp [Cond.raises, h]
      rw [State.judge_moves low (by simp), State.modRoom_putCond_same s r stays]
    · have quiet : ((s.room r).cond x).move false = .quiet := by
        cases hp : ((s.room r).cond x).phase
        case raised => exact absurd hp h
        all_goals simp only [Cond.move, hp]
      rw [State.judge_moves rfl fun k => h k.1, quiet]
  · have self := s.room_raiseCond r x p n r
    rw [if_pos rfl] at self
    refine ⟨⟨State.onlyRooms_raiseCond s r x p n, fun q hq => ?_⟩, State.raiseCond_alarms s r x p n, ?_, fun y => ?_, fun k hk hm => ?_,
      fun hk hm => ?_⟩
    · rw [State.room_raiseCond, if_neg hq]
    · rw [self, (s.room r).putCond_frame]
      simp only [Option.isNone_iff_eq_none]
    · rw [State.cond_raiseCond, Option.isNone_eq_decide]
      simp only [true_and]
    · rw [State.raiseCond_mgmt, if_neg (by simp [hk]), hk, Mgmt.raise_of_lt _ _ _ hm]
    · rw [State.raiseCond_mgmt, if_pos hk, Mgmt.raise_raise hm]
  · refine ⟨⟨State.onlyRooms_clearCond s r x, fun q hq => ?_⟩, ?_, ?_, fun y => ?_, fun hm => ?_⟩
    · exact State.room_modRoom_ne { s with alarms := _ } (fun rm => rm.putCond x .quiet) hq
    · refine List.map_congr_left fun e _ => ?_
      simp only [Bool.and_eq_true, AlarmEntry.is_iff]
    · have room : (s.clearCond r x).room r = (s.room r).putCond x .quiet := State.room_modRoom_self _ r fun rm => rm.putCond x .quiet
      rw [room]
      exact (s.room r).putCond_frame x .quiet
    · rw [State.cond_clearCond]
      simp only [true_and]
    · have room : (({ s with alarms := s.alarms.map fun (e : AlarmEntry) =>
          if !((s.room r).cond x).unlisted && e.is r x then { e with active := false } else e } : State).modRoom r fun rm =>
            rm.putCond x .quiet).room r = (s.room r).putCond x .quiet := State.room_modRoom_self _ r fun rm => rm.putCond x .quiet
      rw [State.clearCond, State.notify_mgmt, room]
      exact (Mgmt.raise_of_lt _ _ _ hm).trans (by cases x <;> rfl)

/-! ### SET_ALARM_ENTRY and MASK_ALARMS (R122, R128) -/

/-- The conditions of a channel that are QUIET or PENDING become QUIET (R122). -/
theorem ChanConds.requiet_eq (c : ChanConds) : c.requiet =
    let quieten (x : Cond) : Cond := if x.phase = .raised ∨ x.phase = .heldAck then x else .quiet
    ⟨quieten c.onSilence, quieten c.onOver, quieten c.onClip, quieten c.onLoss⟩ := by
  simp only [ChanConds.requiet, Cond.requiet_eq]

/-- Settles O42: by the two rules, with the set of channels as the bits of its number. -/
theorem alarmTablesWritten : Obligations.AlarmTablesWritten := by
  intro s h r a b c d e f g hs
  have mask : exec (.maskAlarms h [a, b]) s = .next ((s.setMask r (Mask.of (BitVec.ofNat 4 a.toNat) b.toNat)).replied h .maskAlarms .ok
      [.bits 4 (Mask.of (BitVec.ofNat 4 a.toNat) b.toNat).kinds.toNat,
        .bits 13 (Mask.of (BitVec.ofNat 4 a.toNat) b.toNat).remaining]) :=
    exec_of_roomWrite rfl hs rfl rfl rfl (by simp) fun e => congrArg (fun r => s.reqMask r [a, b]) e
  refine ⟨fun hset => ?_, fun hk => ?_, fun hk => ?_⟩
  · refine exec_of_roomWrite rfl hs rfl rfl rfl (by simp) fun q =>
      (congrArg (fun r => s.reqSetAlarm r [a, b, c, d, e, f, g]) q).trans ((if_neg fun k => hset ?_).trans ?_)
    · simpa [arg] using congrArg BitVec.toNat k
    · refine congrArg (fun t : State => t.accept _) (State.modRoom_congr s r _ _ ?_)
      have named (k : Fin 16) : (BitVec.ofNat 16 (arg [a, b, c, d, e, f, g] 0)).getLsbD k.val = a.toNat.testBit k.val := by
        rw [BitVec.getLsbD_ofNat]
        simp [arg]
      simp only [RoomRec.writeAlarms, named, ChanConds.requiet_eq]
      rfl
  · rw [mask, Mask.of, if_neg (c := BitVec.ofNat 4 a.toNat = 0#4) hk]
    rfl
  · rw [mask, Mask.of, if_pos (c := BitVec.ofNat 4 a.toNat = 0#4) hk]
    rfl

/-! ### ACK_ALARM (R135, R136) -/

theorem mem_allConds (x : CondId) : x ∈ allConds := by
  refine List.mem_append.2 ?_
  cases x with
  | rack => exact .inr List.mem_cons_self
  | level c k =>
    refine .inl (List.mem_map.2 ⟨(c, k), List.mem_flatMap.2 ⟨c, List.mem_finRange c, List.mem_map.2 ⟨k, ?_, rfl⟩⟩, rfl⟩)
    cases k <;> decide

theorem nodup_allConds : allConds.Nodup := by decide

/-- The conditions that one name names, among all. -/
theorem filter_allConds_eq {names : CondId → Bool} {x : CondId} (h : ∀ y, names y = true ↔ y = x) : allConds.filter names = [x] := by
  have same : names = (· == x) := funext fun y => by
    rw [Bool.eq_iff_iff, h y, beq_iff_eq]
  rw [same, List.filter_beq, List.count_eq_one_of_mem nodup_allConds (mem_allConds x)]
  rfl

/-- The part after the conditions `l` of room `r` are acknowledged, with the two numbers of the reply (R136). -/
structure State.Acked (s : State) (r : Room) (l : List CondId) (acc out : State × Nat × Nat) : Prop where
  frame : out.1 = { s with alarms := out.1.alarms, rooms := out.1.rooms }
  alarms : out.1.alarms = s.alarms.filter fun e => !(decide (e.room = r) && decide (e.cond ∈ l))
  others : ∀ q, q ≠ r → out.1.room q = s.room q
  room : out.1.room r = { s.room r with conds := (out.1.room r).conds, rackCond := (out.1.room r).rackCond }
  conds : ∀ x, (out.1.room r).cond x =
    if x ∈ l ∧ ((s.room r).cond x).phase = .raised then ⟨.heldAck, 0, false⟩ else (s.room r).cond x
  removed : out.2.1 = acc.2.1 + (s.alarms.length - out.1.alarms.length)
  held : out.2.2 = acc.2.2 + (l.filter fun x => decide (((s.room r).cond x).phase = .raised)).length

/-- One condition is acknowledged. -/
theorem State.acked_one (s : State) (r : Room) (n m : Nat) (x : CondId) :
    s.Acked r [x] (s, n, m) (State.ackOne r (s, n, m) x) := by
  have room (v : Cond) : (({ s with alarms := s.alarms.filter fun e => !e.is r x } : State).modRoom r fun rm => rm.putCond x v).room r =
      (s.room r).putCond x v := State.room_modRoom_self _ r fun rm => rm.putCond x v
  have gone : s.alarms.length = s.alarms.countP (fun e => e.is r x) + s.alarms.countP fun e => !e.is r x := by
    rw [List.length_eq_countP_add_countP fun e : AlarmEntry => e.is r x]
    exact congrArg _ (List.countP_congr fun e _ => by simp)
  refine ⟨?_, ?_, fun q hq => ?_, ?_, fun y => ?_, ?_, ?_⟩
  · unfold State.ackOne
    dsimp only
    split <;> rfl
  · rw [State.ackOne_alarms]
    exact List.filter_congr fun e _ => by simp [AlarmEntry.is]
  · unfold State.ackOne
    dsimp only
    split
    · exact State.room_modRoom_ne { s with alarms := _ } (fun rm => rm.putCond x _) hq
    · rfl
  · unfold State.ackOne
    dsimp only
    split
    · dsimp only
      rw [room]
      exact (s.room r).putCond_frame x _
    · rfl
  · rw [State.cond_ackOne]
    by_cases e : y = x
    · subst e
      simp
    · simp [e]
  · rw [State.ackOne_alarms, ← List.countP_eq_length_filter]
    have count : (State.ackOne r (s, n, m) x).2.1 = n + s.alarms.countP fun e => e.is r x := by
      unfold State.ackOne
      dsimp only
      split <;> rfl
    rw [count]
    dsimp only
    omega
  · unfold State.ackOne
    dsimp only
    split
    · next hp => simp [hp]
    · next hp => simp [hp]

/-- One condition more, ahead of the others. -/
theorem State.Acked.cons {s : State} {r : Room} {x : CondId} {l : List CondId} {acc mid out : State × Nat × Nat} (h1 : s.Acked r [x] acc mid)
    (h2 : mid.1.Acked r l mid out) (hx : x ∉ l) : s.Acked r (x :: l) acc out := by
  have shorter : mid.1.alarms.length ≤ s.alarms.length := h1.alarms ▸ List.length_filter_le _ _
  have shortest : out.1.alarms.length ≤ mid.1.alarms.length := h2.alarms ▸ List.length_filter_le _ _
  have before (y : CondId) (hy : y ∈ l) : (mid.1.room r).cond y = (s.room r).cond y := by
    rw [h1.conds, if_neg]
    rintro ⟨hone, -⟩
    exact hx (List.mem_singleton.1 hone ▸ hy)
  refine ⟨?_, ?_, fun q hq => (h2.others q hq).trans (h1.others q hq), ?_, fun y => ?_, ?_, ?_⟩
  · exact h2.frame.trans (congrArg (fun t : State => { t with alarms := out.1.alarms, rooms := out.1.rooms }) h1.frame)
  · rw [h2.alarms, h1.alarms, List.filter_filter]
    refine List.filter_congr fun e _ => ?_
    by_cases hr : e.room = r <;> by_cases he : e.cond = x <;> simp [hr, he]
  · exact h2.room.trans (congrArg (fun rm : RoomRec =>
      { rm with conds := (out.1.room r).conds, rackCond := (out.1.room r).rackCond }) h1.room)
  · rw [h2.conds]
    by_cases hy : y ∈ l
    · simp [before y hy, hy]
    · rw [if_neg fun k => hy k.1, h1.conds]
      simp [hy]
  · have first := h1.removed
    have rest := h2.removed
    omega
  · rw [h2.held, h1.held, List.filter_congr (l := l) fun y hy => by rw [before y hy], Nat.add_assoc, ← List.length_append,
      ← List.filter_append]
    rfl

theorem State.acked_foldl (r : Room) : ∀ {l : List CondId} (s : State) (n m : Nat), l.Nodup →
    s.Acked r l (s, n, m) (l.foldl (State.ackOne r) (s, n, m))
  | [], s, n, m, _ => by
    refine ⟨rfl, ?_, fun _ _ => rfl, rfl, fun x => ?_, ?_, rfl⟩
    · exact (List.filter_eq_self.2 fun e _ => by simp).symm
    · simp
    · simp
  | x :: l, s, n, m, h => by
    obtain ⟨hx, hl⟩ := List.nodup_cons.1 h
    exact (s.acked_one r n m x).cons (State.acked_foldl r _ _ _ hl) hx

/-- What a name of ACK_ALARM names, in the order of the conditions (R135). -/
theorem State.reqAck_eq {s : State} {r : Room} {a b : Payload} {names : CondId → Bool}
    (h : (a.toNat = 268435455 ∧ ∀ x, names x = true) ∨
      ∃ x, a.toNat ≠ 268435455 ∧ CondId.ofCodes a.toNat b.toNat = some x ∧ ∀ y, names y = true ↔ y = x) :
    s.reqAck r [a, b] =
      (((allConds.filter names).foldl (State.ackOne r) (s, 0, 0)).1.accept
        [.bits 6 ((allConds.filter names).foldl (State.ackOne r) (s, 0, 0)).2.1,
          .bits 7 ((allConds.filter names).foldl (State.ackOne r) (s, 0, 0)).2.2]) := by
  have first : arg [a, b] 0 = a.toNat := rfl
  have second : arg [a, b] 1 = b.toNat := rfl
  rcases h with ⟨ha, hall⟩ | ⟨x, ha, hx, hone⟩
  · have every : allConds.filter names = allConds := List.filter_eq_self.2 fun x _ => hall x
    simp only [State.reqAck, first, isNone, ha, every]
    rfl
  · have named : isNone a.toNat = false := beq_eq_false_iff_ne.2 ha
    simp only [State.reqAck, first, second, named, hx, filter_allConds_eq hone]
    rfl

theorem State.admission_ack {s : State} {q : Request} {r : Room} (hr : q.room.toNat = r.val) (hs : s.readable)
    (hl : q.level.toNat ≤ 2) : s.admission .ackAlarm q = none :=
  State.admission_passes (by simp [Kind.form, RoomForm.passes, hr]) hs (by simp [State.levelPasses, Kind.levelClass, atMost, hl])
    (.inr (.inr rfl))

/-- Settles O43: the named conditions are acknowledged one after another. -/
theorem alarmsAcknowledged : Obligations.AlarmsAcknowledged := by
  intro s h r a b names hl hready hr hlevel hnames
  have acked := s.acked_foldl r 0 0 (nodup_allConds.filter names)
  have removed := acked.removed
  have held := acked.held
  rw [Nat.zero_add] at removed held
  refine ⟨((allConds.filter names).foldl (State.ackOne r) (s, 0, 0)).1, ?_, ?_, acked.frame, acked.others, acked.room, fun x => ?_⟩
  · rw [exec_of_message rfl hl rfl (by simp) (State.admission_ack hr hready hlevel)
      ((congrArg (fun r => s.reqAck r [a, b]) (Request.room_getD hr)).trans (State.reqAck_eq hnames)), removed, held, List.filter_filter]
    simp only [Bool.and_comm]
  · rw [acked.alarms]
    exact List.filter_congr fun e _ => by simp [mem_allConds]
  · rw [acked.conds]
    simp [mem_allConds]

end Sys2Proof.Machine
end

section
/-! Timers (O47) and the cursor on timecode events (O46). -/

namespace Sys2Proof.Machine

/-! ### Timers (R165 to R169) -/

theorem exec_timerStart {s : State} {h : Header} {r : Room} {t : Fin 4} {a b c d e : Payload} {unit : TimerUnit} {rep : Bool}
    (hs : s.admits h r) (ht : a.toNat = t.val) (hu : TimerUnit.ofCode b.toNat = some unit) (hr : boolOfCode d.toNat = some rep)
    (h1 : 1 ≤ e.toNat) (h2 : e.toNat ≤ 9999) :
    exec (.timerStart h [a, b, c, d, e]) s = .next ((s.timerStart r t unit c.toNat rep e.toNat).replied h .timerStart .ok
      [.bits 32 (Timer.start unit c.toNat rep e.toNat).remaining]) := by
  refine exec_of_roomWrite rfl hs rfl rfl rfl (by simp) fun q => (congrArg (fun r => s.reqTimerStart r [a, b, c, d, e]) q).trans ?_
  have index : below 4 (arg [a, b, c, d, e] 0) = some t := below_of_eq ht
  have code : TimerUnit.ofCode (arg [a, b, c, d, e] 1) = some unit := hu
  have mode : boolOfCode (arg [a, b, c, d, e] 3) = some rep := hr
  have target : ¬(arg [a, b, c, d, e] 4 = 0 ∨ 9999 < arg [a, b, c, d, e] 4) := by
    show ¬(e.toNat = 0 ∨ 9999 < e.toNat)
    omega
  simp only [State.reqTimerStart, index, code, mode, if_neg target]
  rfl

theorem exec_timerStop {s : State} {h : Header} {r : Room} {t : Fin 4} {a : Payload} (hs : s.admits h r) (ht : a.toNat = t.val) :
    exec (.timerStop h [a]) s = .next ((s.timerStop r t).replied h .timerStop .ok []) := by
  refine exec_of_roomWrite rfl hs rfl rfl rfl (by simp) fun q => (congrArg (fun r => s.reqTimerStop r [a]) q).trans ?_
  have index : below 4 (arg [a] 0) = some t := below_of_eq ht
  simp only [State.reqTimerStop, index]
  rfl

/-- The periods of each unit (R165). -/
theorem TimerUnit.periods_eq (unit : TimerUnit) :
    unit.periods = match unit with | .sample => 1 | .frame => 2000 | .second => 48000 := by
  cases unit <;> rfl

/-- An expiry whose target is in the list (R167). -/
theorem State.expire_found {s : State} {r : Room} {t : Fin 4} {n : Nat} {c : Cue} (ht : (s.room r).timers[t].target = some n)
    (hc : findCue (s.room r).list n = some c) :
    s.expire r t = ((s.modRoom r fun rm => rm.modTimer t Timer.next).fire r c (.timer t)).st := by
  unfold State.expire
  simp only [ht, hc]

/-- An expiry whose target is not in the list (R168). -/
theorem State.expire_orphan {s : State} {r : Room} {t : Fin 4} {n : Nat} (ht : (s.room r).timers[t].target = some n)
    (hc : findCue (s.room r).list n = none) : s.expire r t = (s.timerStop r t).notify r (.timerOrphan t n) := by
  unfold State.expire
  simp only [ht, hc]

theorem State.modTimer_eq (s : State) (r : Room) (t : Fin 4) {f : Timer → Timer} {x : Timer} (h : f (s.room r).timers[t] = x) :
    (s.modRoom r fun rm => rm.modTimer t f) = s.modRoom r fun rm => { rm with timers := rm.timers.set t.val x t.isLt } := by
  subst h
  exact State.modRoom_congr s r _ _ rfl

theorem State.cuesFire_iff (s : State) : s.cuesFire = true ↔ s.supply = false ∧ s.store = .ready ∧ s.restart = none := by
  unfold State.cuesFire State.notReady
  cases s.restart <;> simp

theorem State.cuesFire_false {s : State} (h : s.supply = true ∨ s.store ≠ .ready ∨ s.restart ≠ none) : s.cuesFire = false := by
  refine Bool.eq_false_iff.2 fun k => ?_
  obtain ⟨h1, h2, h3⟩ := s.cuesFire_iff.1 k
  rcases h with h | h | h
  · exact Bool.false_ne_true (h1.symm.trans h)
  · exact h h2
  · exact h h3

/-- Settles O47: the two requests, and the expiry by its target and mode. -/
theorem timersRun : Obligations.TimersRun := by
  refine ⟨fun s h r t a b c d e hs ht => ⟨fun unit rep hu hr h1 h2 => ?_, exec_timerStop hs ht⟩,
    fun s r t n hopen h1 h2 h3 hrun hexp htarget => ?_⟩
  · rw [exec_timerStart hs ht hu hr h1 h2]
    cases unit <;> rfl
  · have due : State.timerDue r t s = true :=
      Bool.and_eq_true_iff.2 ⟨s.cuesFire_iff.2 ⟨h1, h2, h3⟩, Bool.and_eq_true_iff.2 ⟨hrun, hexp⟩⟩
    have course : exec (.timerExpiry r t) s = .next (s.expire r t) := by
      show Host.Outcome.next (s.takeDue _ _) = _
      rw [State.takeDue_of_open hopen, State.force, if_pos due]
    rw [course]
    refine ⟨fun c hc => ⟨fun hrep => ?_, fun hrep => ?_⟩, fun hc => ?_⟩
    · rw [State.expire_found htarget hc, State.modTimer_eq s r t (f := Timer.next) (if_neg (Bool.eq_false_iff.1 hrep))]
      rfl
    · rw [State.expire_found htarget hc, State.modTimer_eq s r t (f := Timer.next) (if_pos hrep), Timer.full, TimerUnit.periods_eq] <;> rfl
    · rw [State.expire_orphan htarget hc]
      rfl

/-! ### Runs on a list whose frames do not fall (R151, R152) -/

/-- The frames of a list's AT cues do not fall (R147). -/
abbrev framesRise (l : List Cue) : Prop := (l.filterMap Cue.frame?).Pairwise (· ≤ ·)

theorem framesRise_cons {c : Cue} {f : Nat} {l : List Cue} (hf : c.frame? = some f) (h : framesRise (c :: l)) :
    framesRise l ∧ ∀ x ∈ l, ∀ g, x.frame? = some g → f ≤ g := by
  have h : (f :: l.filterMap Cue.frame?).Pairwise (· ≤ ·) := by rwa [framesRise, List.filterMap_cons_some hf] at h
  obtain ⟨least, rest⟩ := List.pairwise_cons.1 h
  exact ⟨rest, fun x hx g hg => least g (List.mem_filterMap.2 ⟨x, hx, hg⟩)⟩

theorem framesRise_cons_none {c : Cue} {l : List Cue} (hf : c.frame? = none) (h : framesRise (c :: l)) : framesRise l := by
  rwa [framesRise, List.filterMap_cons_none hf] at h

theorem framesRise_drop {l : List Cue} (n : Nat) (h : framesRise l) : framesRise (l.drop n) :=
  h.sublist ((List.drop_sublist n l).filterMap Cue.frame?)

theorem runOf_eq (t : Nat) : ∀ {l : List Cue}, framesRise l → runOf t l = l.filter fun c => c.frame?.any fun f => decide (f ≤ t)
  | [], _ => rfl
  | c :: cs, h => by
    cases hf : c.frame? with
    | none => simp [runOf, hf, runOf_eq t (framesRise_cons_none hf h)]
    | some f =>
      obtain ⟨rest, least⟩ := framesRise_cons hf h
      by_cases ht : f ≤ t
      · simp [runOf, hf, ht, runOf_eq t rest]
      · have above : cs.filter (fun c => c.frame?.any fun f => decide (f ≤ t)) = [] := by
          refine List.filter_eq_nil_iff.2 fun x hx => ?_
          cases hg : x.frame? with
          | none => simp
          | some g =>
            have := least x hx g hg
            simp
            omega
        simp [runOf, hf, ht, above]

/-- From the first AT cue whose frame is at least T, those of at most T are those of T. -/
theorem filter_drop_firstAt (t : Nat) : ∀ {l : List Cue}, framesRise l →
    (l.drop (firstAt (fun f => decide (t ≤ f)) l)).filter (fun c => c.frame?.any fun f => decide (f ≤ t)) =
      l.filter fun c => c.frame?.any fun f => decide (f = t)
  | [], _ => rfl
  | c :: cs, h => by
    cases hf : c.frame? with
    | none => simp [firstAt, hf, filter_drop_firstAt t (framesRise_cons_none hf h)]
    | some f =>
      obtain ⟨rest, least⟩ := framesRise_cons hf h
      by_cases ht : t ≤ f
      · have first : firstAt (fun f => decide (t ≤ f)) (c :: cs) = 0 := by simp [firstAt, hf, ht]
        rw [first, List.drop_zero]
        refine List.filter_congr fun x hx => ?_
        cases hg : x.frame? with
        | none => rfl
        | some g =>
          have above : t ≤ g := by
            rcases List.mem_cons.1 hx with rfl | hx
            · rw [hf] at hg
              cases hg
              exact ht
            · exact ht.trans (least x hx g hg)
          simp only [Option.any_some]
          rw [decide_eq_decide]
          omega
      · have other : f ≠ t := by omega
        simp [firstAt, hf, ht, other, filter_drop_firstAt t rest]

/-- A search from a position before which no AT cue passes is one from the start. -/
theorem firstAtFrom_eq {p : Nat → Bool} : ∀ {l : List Cue} {n : Nat}, n ≤ l.length →
    (∀ i < n, ∀ c f, l[i]? = some c → c.frame? = some f → p f = false) → firstAtFrom p n l = firstAt p l
  | l, 0, _, _ => by simp [firstAtFrom]
  | c :: cs, n + 1, hn, h => by
    have rest : firstAtFrom p n cs = firstAt p cs :=
      firstAtFrom_eq (by simpa using hn) fun i hi x f hx hf => h (i + 1) (by omega) x f hx hf
    have shift : firstAtFrom p (n + 1) (c :: cs) = firstAtFrom p n cs + 1 := by
      simp [firstAtFrom]
      omega
    rw [shift, rest]
    cases hf : c.frame? with
    | none => simp [firstAt, hf]
    | some f => simp [firstAt, hf, h 0 (by omega) c f rfl hf]

/-- A run leaves the cursor at the first AT cue above T, when none before it is above T (R151). -/
theorem State.runTo_eq {s : State} {r : Room} {t : Nat} (jump : Bool) (hf : framesRise (s.room r).list)
    (hn : (s.room r).cursor ≤ (s.room r).list.length)
    (h : ∀ i < (s.room r).cursor, ∀ c f, (s.room r).list[i]? = some c → c.frame? = some f → f ≤ t) :
    s.runTo r jump t = (s.modRoom r fun rm => { rm with cursor := firstAt (fun f => decide (t < f)) rm.list }).fireRun r
      (.timecode jump t) (((s.room r).list.drop (s.room r).cursor).filter fun c => c.frame?.any fun f => decide (f ≤ t)) := by
  have cursor : firstAtFrom (fun f => decide (t < f)) (s.room r).cursor (s.room r).list =
      firstAt (fun f => decide (t < f)) (s.room r).list :=
    firstAtFrom_eq hn fun i hi c f hc hg => decide_eq_false (Nat.not_lt.2 (h i hi c f hc hg))
  have moved := State.modRoom_congr s r (fun rm => { rm with cursor := firstAtFrom (fun f => decide (t < f)) rm.cursor rm.list })
    (fun rm => { rm with cursor := firstAt (fun f => decide (t < f)) rm.list }) (by rw [cursor])
  rw [State.runTo, moved, runOf_eq t (framesRise_drop _ hf)]

theorem State.takesTimecode_false {s : State} {r : Room}
    (h : s.supply = true ∨ s.store ≠ .ready ∨ s.restart ≠ none ∨ (s.room r).path.state = .off) : s.takesTimecode r = false := by
  unfold State.takesTimecode
  rcases h with h | h | h | h
  · rw [State.cuesFire_false (.inl h), Bool.false_and]
  · rw [State.cuesFire_false (.inr (.inl h)), Bool.false_and]
  · rw [State.cuesFire_false (.inr (.inr h)), Bool.false_and]
  · simp [h]

/-- Settles O46: the run by the order of the frames, and the event by its kind. -/
theorem cursorRuns : Obligations.CursorRuns := by
  refine ⟨fun s r t h1 h2 h3 hoff hf => ?_, fun s r t h => ?_, fun s r why c cs => ⟨rfl, fun h => if_pos h, fun h => if_neg h⟩,
    fun p l => ⟨firstAt_le p l, fun i hi c f => firstAt_before hi, fun hl => ?_⟩, fun s r t ha => ⟨fun e => ?_, fun e => ?_, fun e => ?_⟩⟩
  · have takes : s.takesTimecode r = true :=
      Bool.and_eq_true_iff.2 ⟨s.cuesFire_iff.2 ⟨h1, h2, h3⟩, decide_eq_true hoff⟩
    refine ⟨fun hn h => ?_, ?_⟩
    · rw [State.advanceTo, if_pos takes, State.runTo_eq false hf hn h]
      refine congrArg (State.fireRun _ r _) (List.filter_congr fun c _ => ?_)
      dsimp only
      cases c.frame? <;> rfl
    · have room := s.room_modRoom_self r fun rm => { rm with cursor := firstAt (fun f => decide (t ≤ f)) rm.list }
      rw [State.jumpTo, if_pos takes, State.runTo_eq true (by rwa [room]) (by rw [room]; exact firstAt_le _ _) ?_, room,
        State.modRoom_modRoom, filter_drop_firstAt t hf]
      · refine congrArg (State.fireRun _ r _) (List.filter_congr fun c _ => ?_)
        dsimp only
        cases c.frame? <;> rfl
      · rw [room]
        intro i hi c f hc hg
        have low := of_decide_eq_false (firstAt_before hi hc hg)
        omega
  · rw [State.advanceTo, State.jumpTo, State.takesTimecode_false h]
    exact ⟨rfl, rfl⟩
  · rcases firstAt_at p l with h | h
    · exact absurd h hl.ne
    · exact h
  · simp only [State.takeTimecode, if_neg ha, e]
    rfl
  · simp only [State.takeTimecode, if_neg ha, e]
    rfl
  · simp only [State.takeTimecode, if_neg ha, e]
    rfl

end Sys2Proof.Machine
end

section
/-! Cues: what CUE_GO, a firing, an action and a hand-over do (O44). -/

namespace Sys2Proof.Machine

/-! ### CUE_GO (R158, R198) -/

theorem State.admission_cueGo {s : State} {q : Request} {r : Room} (hr : q.room.toNat = r.val) (hop : s.operational)
    (hg : ∀ c, findCue (s.room r).list (arg q.body 0) = some c → q.level.toNat ≤ c.gate.val) : s.admission .cueGo q = none := by
  obtain ⟨hstore, hrestart, hsupply⟩ := hop
  refine State.admission_passes (by simp [Kind.form, RoomForm.passes, hr]) ⟨hstore, hrestart⟩ ?_ (.inl hsupply)
  simp only [State.levelPasses, Kind.levelClass, Request.room_getD hr]
  cases hc : findCue (s.room r).list (arg q.body 0) with
  | none => rfl
  | some c => exact decide_eq_true (hg c hc)

theorem exec_cueGo {s u : State} {h : Header} {r : Room} {a : Payload} {res : Result} {fs : List Fld} (hl : s.listening)
    (hop : s.operational) (hr : h.room.toNat = r.val)
    (hg : ∀ c, findCue (s.room r).list a.toNat = some c → h.level.toNat ≤ c.gate.val)
    (hq : s.reqCueGo r h.originator [a] = (u, res, pack fs)) : exec (.cueGo h [a]) s = .next (u.replied h .cueGo res fs) :=
  exec_of_message rfl hl rfl (by simp) (State.admission_cueGo hr hop hg)
    ((congrArg (fun r => s.reqCueGo r h.originator [a]) (Request.room_getD hr)).trans hq)

/-! ### A firing (R160, R162) -/

/-- Actions of a cue performed one after another, each on the state that the one before left (R160). -/
def State.performAll (s : State) (r : Room) (number : Nat) (l : List Action) : State :=
  l.foldl (fun u a => (u.perform r number a).1) s

/-- The failed actions among those of a list, with their indices from 1, each performed after those ahead of it (R160). -/
def State.failures (s : State) (r : Room) (number : Nat) (l : List Action) : List (Nat × Result) :=
  l.zipIdx.filterMap fun x =>
    if ((s.performAll r number (l.take x.2)).perform r number x.1).2 = .ok then none
    else some (x.2 + 1, ((s.performAll r number (l.take x.2)).perform r number x.1).2)

/-- One action more, behind the others. -/
theorem State.failures_concat (s : State) (r : Room) (number : Nat) (l : List Action) (a : Action) :
    s.failures r number (l ++ [a]) = s.failures r number l ++
      if ((s.performAll r number l).perform r number a).2 = .ok then []
      else [(l.length + 1, ((s.performAll r number l).perform r number a).2)] := by
  have earlier : l.zipIdx.filterMap (fun x =>
      if ((s.performAll r number ((l ++ [a]).take x.2)).perform r number x.1).2 = .ok then none
      else some (x.2 + 1, ((s.performAll r number ((l ++ [a]).take x.2)).perform r number x.1).2)) = s.failures r number l := by
    refine List.filterMap_congr fun x hx => ?_
    have inside : x.2 < l.length := by
      have := List.snd_lt_of_mem_zipIdx hx
      simpa using this
    rw [List.take_append_of_le_length inside.le]
  unfold State.failures at earlier ⊢
  rw [List.zipIdx_append, List.filterMap_append, earlier]
  refine congrArg _ ?_
  simp only [Nat.zero_add, List.zipIdx_singleton, List.filterMap_cons, List.filterMap_nil, List.take_left]
  by_cases hok : ((s.performAll r number l).perform r number a).2 = .ok
  · simp only [if_pos hok]
  · simp only [if_neg hok]

theorem State.performAll_concat (s : State) (r : Room) (number : Nat) (l : List Action) (a : Action) :
    s.performAll r number (l ++ [a]) = ((s.performAll r number l).perform r number a).1 := List.foldl_concat ..

/-- The actions of a firing in order: what they leave, and those that failed. -/
theorem fireSteps_eq (s : State) (r : Room) (number : Nat) (l : List Action) :
    (l.zipIdx.map fun x => (x.2 + 1, x.1)).foldl (fireStep r number) ⟨s, []⟩ =
      ⟨s.performAll r number l, s.failures r number l⟩ := by
  induction l using List.reverseRecOn with
  | nil => rfl
  | append_singleton l a ih =>
    rw [List.zipIdx_append, List.map_append, List.foldl_append, ih, State.failures_concat, State.performAll_concat]
    simp only [List.zipIdx_singleton, List.map_cons, List.map_nil, List.foldl_cons, List.foldl_nil, fireStep, Nat.zero_add]
    by_cases hok : ((s.performAll r number l).perform r number a).2 = .ok
    · simp only [if_pos hok, List.append_nil]
    · simp only [if_neg hok]

theorem State.fire_eq (s : State) (r : Room) (c : Cue) (why : Cause) :
    let said := s.notify r (.cueFired c.number c.trigger why)
    s.fire r c why = ⟨if said.failures r c.number c.actions = [] then said.performAll r c.number c.actions
      else (said.performAll r c.number c.actions).notify r (.cueFailed c.number why (said.failures r c.number c.actions)),
      said.failures r c.number c.actions⟩ := by
  dsimp only
  unfold State.fire Cue.numbered
  rw [fireSteps_eq]
  dsimp only
  split <;> rfl

/-! ### Actions (R144, R161) -/

theorem goReason_ok (st : RoomState) (t : GoTarget) : goReason st t .ok = .ok := if_neg nofun

/-- An action is performed, or changes nothing (R161). -/
theorem State.spares_perform (s : State) (r : Room) (number : Nat) (a : Action) : s.Spares (s.perform r number a) := by
  cases a with
  | setFormat i =>
    simp only [State.perform, State.selectFormat]
    split
    · exact .inr rfl
    · exact .inl rfl
  | setSource m => exact .inl rfl
  | selectBank n => exact .inl rfl
  | fade step ms => exact .inl rfl
  | mute yes => exact .inl rfl
  | mask kinds blocks => exact .inl rfl
  | contact o on =>
    simp only [State.perform]
    split
    · exact .inl rfl
    · exact .inr rfl
  | go t =>
    refine (State.spares_goJudge r t).imp (fun hok => ?_) id
    show goReason _ t (s.goJudge r t).2 = .ok
    rw [hok, goReason_ok]
  | timerStart t unit count rep target =>
    simp only [State.perform]
    split
    · exact .inl rfl
    · exact .inr rfl
  | timerStop t =>
    simp only [State.perform]
    split
    · exact .inl rfl
    · exact .inr rfl

section
variable {s : State} {r : Room} {number : Nat}

/-- FADE as SET_GAIN (R144). -/
theorem State.perform_fade {a : BitVec 7} {b : BitVec 16} {gn : Gain} (h : (s.room r).gain.set s.law a.toNat b.toNat = gn) :
    s.perform r number (.fade a b) = (s.modRoom r fun rm => { rm with gain := gn }, .ok) :=
  congrArg (·, Result.ok) (State.setGain_eq s r h)

/-- MUTE as SET_MUTE (R144). -/
theorem State.perform_mute (yes : Bool) : s.perform r number (.mute yes) = if (s.room r).gain.mute = yes then (s, .ok)
    else (s.modRoom r fun rm => { rm with gain := { (s.room r).gain with
      mute := yes, fade := some ⟨(s.room r).gain.g, if yes then 0 else s.law[(s.room r).gain.step], 480, 0⟩ } }, .ok) := by
  split
  · next h =>
    subst h
    exact congrArg (·, Result.ok) (State.setMute_same s r)
  · next h => exact congrArg (·, Result.ok) (State.setMute_eq s r (if_neg h))

theorem State.perform_timers {a : BitVec 3} {i : Fin 4} (h : a.toNat = i.val) (unit : TimerUnit) (n : BitVec 16) (rep : Bool)
    (target : Nat) : s.perform r number (.timerStart a unit n rep target) = (s.timerStart r i unit n.toNat rep target, .ok) ∧
      s.perform r number (.timerStop a) = (s.timerStop r i, .ok) := by
  simp only [State.perform, below_of_eq h]
  exact ⟨trivial, trivial⟩

theorem State.perform_noTimer {a : BitVec 3} (h : 3 < a.toNat) (unit : TimerUnit) (n : BitVec 16) (rep : Bool) (target : Nat) :
    s.perform r number (.timerStart a unit n rep target) = (s, .badField) ∧ s.perform r number (.timerStop a) = (s, .badField) := by
  have code : below 4 a.toNat = none := dif_neg (by omega)
  simp only [State.perform, code]
  exact ⟨trivial, trivial⟩

end

/-! ### Hand-overs (R156, R163) -/

theorem State.fireAll_map (s : State) (r : Room) (l : List Cue) (why : Cause) :
    s.fireAll r (l.map fun c => (c, why)) = l.foldl (fun v c => (v.fire r c why).st) s := List.foldl_map

section
variable {s : State} {r : Room} {pre post : List Handover} {h : Handover} (hs : s.handovers = pre ++ h :: post) (hr : h.room = r)
  (hp : ∀ x ∈ pre, x.room ≠ r)
include hs hr hp

/-- The first hand-over of the room. -/
theorem State.handoverOf_eq : s.handoverOf r = some h := by
  rw [State.handoverOf, hs, List.find?_append, List.find?_eq_none.2 fun x hx => by simpa using hp x hx]
  simp [hr]

/-- The first hand-over of the room leaves the list. -/
theorem State.nextHandover_eq : s.nextHandover r = ({ s with handovers := pre ++ post } : State).takeHandover h := by
  have gone : s.handovers.eraseP (fun x => decide (x.room = r)) = pre ++ post := by
    rw [hs, List.eraseP_append_right _ fun x hx => by simpa using hp x hx]
    simp [hr]
  simp only [State.nextHandover, State.handoverOf_eq hs hr hp, gone]

theorem exec_alarmHandover (ho : s.periodOpen = true) :
    exec (.alarmHandover r) s = .next (({ s with handovers := pre ++ post } : State).takeHandover h) := by
  show Host.Outcome.next (s.takeDue _ _) = _
  rw [State.takeDue_of_open ho, State.force, if_pos (by rw [State.handoverOf_eq hs hr hp]; rfl), State.nextHandover_eq hs hr hp]

end

theorem Cue.matchesAlarm_level (c : Cue) (a : Chan) (k : LevelKind) :
    c.matchesAlarm (.level a k) = true ↔ c.trigger = .alarm k.kind .any ∨ c.trigger = .alarm k.kind (.ch a) := by
  unfold Cue.matchesAlarm
  cases c.trigger with
  | alarm kind ch =>
    refine (Bool.and_eq_true_iff.trans (and_congr_left' decide_eq_true_iff)).trans ?_
    show kind = k.kind ∧ _ ↔ _
    cases ch <;> simp
  | _ => simp

theorem Cue.matchesAlarm_rack (c : Cue) :
    c.matchesAlarm .rack = true ↔ c.trigger = .alarm .rack .any ∨ c.trigger = .alarm .rack .room := by
  unfold Cue.matchesAlarm
  cases c.trigger with
  | alarm kind ch =>
    refine (Bool.and_eq_true_iff.trans (and_congr_left' decide_eq_true_iff)).trans ?_
    show kind = .rack ∧ _ ↔ _
    cases ch <;> simp
  | _ => simp

/-- Settles O44: the request by the cue it names, the firing action by action, and the hand-over by what may fire. -/
theorem cuesFire : Obligations.CuesFire := by
  refine ⟨fun s h r a c hl hop hr h1 h2 => ⟨fun hc hg => ?_, fun hc => ?_⟩, fun s r c why => ?_, fun s r number a => (s.spares_perform r number a).resolve_left,
    fun s r number => ⟨fun i => ⟨fun hm hp => State.selectFormat_notReady hm hp, fun hm => State.selectFormat_ready hm⟩, fun m => rfl,
      fun n => rfl, fun a b step hstep => ?_, State.perform_mute, fun kinds n => ?_, fun t => ⟨rfl, rfl⟩, fun a unit n rep target => ⟨fun ha =>
        State.perform_noTimer ha unit n rep target, fun i ha => ?_⟩⟩,
    fun s r pre post h ho hs hr hp => ⟨fun hf => ?_, fun h1 h2 h3 => ?_⟩, fun c a k => ⟨c.matchesAlarm_level a k, c.matchesAlarm_rack⟩⟩
  · have range : ¬(arg [a] 0 = 0 ∨ 9999 < arg [a] 0) := by
      show ¬(a.toNat = 0 ∨ 9999 < a.toNat)
      omega
    have found : findCue (s.room r).list (arg [a] 0) = some c := hc
    refine exec_cueGo hl hop hr (fun d hd => ?_) ?_
    · cases hc.symm.trans hd
      exact hg
    · simp only [State.reqCueGo, if_neg range, found]
      rfl
  · have range : ¬(arg [a] 0 = 0 ∨ 9999 < arg [a] 0) := by
      show ¬(a.toNat = 0 ∨ 9999 < a.toNat)
      omega
    have missing : findCue (s.room r).list (arg [a] 0) = none := hc
    refine exec_cueGo (fs := []) hl hop hr (fun d hd => ?_) ?_
    · cases hc.symm.trans hd
    · simp only [State.reqCueGo, if_neg range, missing]
      rfl
  · have all : ((c.actions.take c.actions.length).foldl (fun u a => (u.perform r c.number a).1)
        (s.notify r (.cueFired c.number c.trigger why))) =
        (s.notify r (.cueFired c.number c.trigger why)).performAll r c.number c.actions := by
      rw [List.take_length]
      rfl
    dsimp only
    rw [State.fire_eq, all]
    exact ⟨rfl, rfl⟩
  · obtain rfl : clampStep a.toNat = step := Fin.ext hstep.symm
    refine ⟨fun hm => State.perform_fade (if_pos hm), fun hm hb => State.perform_fade ?_, fun hm hb => State.perform_fade ?_⟩
    · have short : fadeLength b.toNat = 0 := by simp [fadeLength, hb]
      rw [Gain.set, if_neg (by simp [hm]), Gain.begin, if_pos short]
    · have long : fadeLength b.toNat ≠ 0 := by
        unfold fadeLength
        omega
      rw [Gain.set, if_neg (by simp [hm]), Gain.begin, if_neg long]
      rfl
  · show (s.setMask r (Mask.of kinds n.toNat), Result.ok) = _
    rfl
  · obtain ⟨start, stop⟩ := State.perform_timers (s := s) (r := r) (number := number) ha unit n rep target
    have count : clamp 1 65535 n.toNat = max 1 n.toNat := by
      have := n.isLt
      unfold clamp
      omega
    refine ⟨start.trans ?_, stop⟩
    rw [State.timerStart, Timer.start, count]
    cases unit <;> rfl
  · rw [exec_alarmHandover hs hr hp ho, State.takeHandover, if_neg]
    rw [show ({ s with handovers := pre ++ post } : State).cuesFire = s.cuesFire from rfl, State.cuesFire_false hf]
    exact Bool.false_ne_true
  · have fires : ({ s with handovers := pre ++ post } : State).cuesFire = true := s.cuesFire_iff.2 ⟨h1, h2, h3⟩
    rw [exec_alarmHandover hs hr hp ho, State.takeHandover, if_pos fires, hr]
    simp only [State.fireAll_map]

end Sys2Proof.Machine
end

section
/-! Drafts, commits and rewinds (O45). -/

namespace Sys2Proof.Machine

/-! ### The checks of an append and of a commit (R146, R147) -/

theorem firstBad_none {entries : List (List Payload)} {cues : List Cue} (h : entries.map Cue.ofWords = cues.map some) :
    firstBad entries = none := by
  refine List.findIdx?_eq_none_iff.2 fun e he => ?_
  have read : Cue.ofWords e ∈ cues.map some := h ▸ List.mem_map_of_mem he
  obtain ⟨c, -, hc⟩ := List.mem_map.1 read
  rw [← hc]
  rfl

theorem filterMap_ofWords {entries : List (List Payload)} {cues : List Cue} (h : entries.map Cue.ofWords = cues.map some) :
    entries.filterMap Cue.ofWords = cues := by
  calc entries.filterMap Cue.ofWords
      _ = (entries.map Cue.ofWords).filterMap id := by rw [List.filterMap_map]; rfl
      _ = cues := by rw [h, List.filterMap_map]; exact List.filterMap_some

theorem firstBad_at {pre post : List (List Payload)} {e : List Payload} (he : Cue.ofWords e = none)
    (hp : ∀ x ∈ pre, Cue.ofWords x ≠ none) : firstBad (pre ++ e :: post) = some pre.length := by
  rw [firstBad, List.findIdx?_append, List.findIdx?_eq_none_iff.2 fun x hx => by simpa [Option.isSome_iff_ne_none] using hp x hx]
  simp [List.findIdx?_cons, he]

/-- Entries in order behind a number pass the check, and the next one is checked against the last of them. -/
theorem firstDisorder_append : ∀ (pre : List Cue) {last : Option Nat} (i : Nat) (rest : List Cue),
    (last.toList ++ pre.map (·.number)).Pairwise (· < ·) →
      firstDisorder last i (pre ++ rest) = firstDisorder (last.toList ++ pre.map (·.number)).getLast? (i + pre.length) rest
  | [], last, i, rest, _ => by cases last <;> rfl
  | c :: cs, last, i, rest, h => by
    have above : ¬last.any (fun n => decide (c.number ≤ n)) = true := by
      cases last with
      | none => simp
      | some n =>
        have := (List.pairwise_cons.1 h).1 c.number (by simp)
        simp
        omega
    have behind : ((some c.number).toList ++ cs.map (·.number)).Pairwise (· < ·) := (List.pairwise_append.1 h).2.1
    rw [List.cons_append, firstDisorder_cons, if_neg above, firstDisorder_append cs (i + 1) rest behind, List.length_cons,
      List.map_cons, List.getLast?_append_of_ne_nil _ (List.cons_ne_nil _ _), Nat.add_right_comm, Nat.add_assoc]
    rfl

theorem firstDisorder_none {cues : List Cue} {last : Option Nat} (h : (last.toList ++ cues.map (·.number)).Pairwise (· < ·)) :
    firstDisorder last 0 cues = none := by
  rw [← List.append_nil cues, firstDisorder_append cues 0 [] h]
  rfl

theorem firstDisorder_at {pre post : List Cue} {c : Cue} {last : Option Nat} {n : Nat}
    (h : (last.toList ++ pre.map (·.number)).Pairwise (· < ·)) (hn : (last.toList ++ pre.map (·.number)).getLast? = some n)
    (hc : c.number ≤ n) : firstDisorder last 0 (pre ++ c :: post) = some pre.length := by
  rw [firstDisorder_append pre 0 _ h, hn, firstDisorder_cons, if_pos (show Option.any (fun n => decide (c.number ≤ n)) (some n) = true from decide_eq_true hc), Nat.zero_add]

/-- Entries whose frames rise pass the check, and the next one is checked against a frame that none of theirs exceeds. -/
theorem frameDisorder_append : ∀ {pre : List Cue} {hi : Nat} (rest : List Cue), framesRise pre →
    (∀ f ∈ pre.filterMap Cue.frame?, hi ≤ f) →
      ∃ m, frameDisorder hi (pre ++ rest) = frameDisorder m rest ∧ hi ≤ m ∧ ∀ f ∈ pre.filterMap Cue.frame?, f ≤ m
  | [], hi, rest, _, _ => ⟨hi, rfl, le_rfl, nofun⟩
  | c :: cs, hi, rest, h, hlow => by
    cases hf : c.frame? with
    | none =>
      rw [List.filterMap_cons_none hf] at hlow ⊢
      obtain ⟨m, hm, hle⟩ := frameDisorder_append rest (framesRise_cons_none hf h) hlow
      refine ⟨m, ?_, hle⟩
      rw [← hm, List.cons_append, frameDisorder]
      simp only [hf]
    | some f =>
      rw [List.filterMap_cons_some hf] at hlow ⊢
      obtain ⟨rise, least⟩ := framesRise_cons hf h
      have first : hi ≤ f := hlow f List.mem_cons_self
      obtain ⟨m, hm, hhi, hle⟩ := frameDisorder_append (hi := max hi f) rest rise fun g hg => by
        obtain ⟨x, hx, hxg⟩ := List.mem_filterMap.1 hg
        exact max_le (first.trans (least x hx g hxg)) (least x hx g hxg)
      refine ⟨m, ?_, (le_max_left _ _).trans hhi, fun g hg => ?_⟩
      · rw [← hm, List.cons_append, frameDisorder]
        simp only [hf, if_neg (Nat.not_lt.2 first)]
      · rcases List.mem_cons.1 hg with rfl | hg
        · exact (le_max_right _ _).trans hhi
        · exact hle g hg

theorem frameDisorder_none {l : List Cue} (h : framesRise l) : frameDisorder 0 l = none := by
  obtain ⟨m, hm, -, -⟩ := frameDisorder_append (hi := 0) [] h fun _ _ => Nat.zero_le _
  rw [← List.append_nil l, hm]
  rfl

theorem frameDisorder_at {pre post : List Cue} {c : Cue} {f g : Nat} (hf : c.frame? = some f) (hg : g ∈ pre.filterMap Cue.frame?)
    (hlt : f < g) (h : framesRise pre) : frameDisorder 0 (pre ++ c :: post) = some c.number := by
  obtain ⟨m, hm, -, hle⟩ := frameDisorder_append (hi := 0) (c :: post) h fun _ _ => Nat.zero_le _
  have below : f < m := hlt.trans_le (hle g hg)
  rw [hm, frameDisorder]
  simp only [hf, if_pos below]

/-! ### The four requests -/

section
variable {s u : State} {h : Header} {r : Room} {res : Result} {fs : List Fld} (hs : s.admits h r)
include hs

theorem exec_draftAppend {body : List Payload} {entries : List (List Payload)} (hb : body.length ≤ 72)
    (he : entriesOf body = some entries) (hq : s.reqDraftAppend r body = (u, res, pack fs)) :
    exec (.cueDraftAppend h body) s = .next (u.replied h .cueDraftAppend res fs) :=
  exec_of_roomWrite rfl hs rfl rfl (by simp [Kind.lengthOk, he]) hb fun e => (congrArg (fun r => s.reqDraftAppend r body) e).trans hq

theorem exec_cueCommit (hq : s.reqCommit r = (u, res, pack fs)) : exec (.cueCommit h []) s = .next (u.replied h .cueCommit res fs) :=
  exec_of_roomWrite rfl hs rfl rfl rfl (by simp) fun e => (congrArg (fun r => s.reqCommit r) e).trans hq

end

/-- Entries that can be read are checked for their order and then for the room in the store (R146). -/
theorem State.reqDraftAppend_eq {s : State} {r : Room} {body : List Payload} {entries : List (List Payload)} {cues : List Cue}
    (he : entriesOf body = some entries) (hc : entries.map Cue.ofWords = cues.map some) : s.reqDraftAppend r body =
      match firstDisorder ((s.room r).draft.getLast?.map (·.number)) 0 cues with
      | some i => s.refuseWith .order [.bits 5 i]
      | none =>
        if 128 < (s.room r).draft.length + cues.length ∨ 512 < s.cueUsed + cues.length then
          s.refuseWith .storeFull [.bits 8 (s.room r).draft.length, .bits 10 (512 - s.cueUsed)]
        else (s.modRoom r fun rm => { rm with draft := rm.draft ++ cues }).accept
          [.bits 8 ((s.room r).draft.length + cues.length), .bits 10 (s.cueUsed + cues.length)] := by
  have length : ((s.modRoom r fun rm => { rm with draft := rm.draft ++ cues }).room r).draft.length =
      (s.room r).draft.length + cues.length := by
    rw [State.room_modRoom_self]
    exact List.length_append
  have used : (s.modRoom r fun rm => { rm with draft := rm.draft ++ cues }).cueUsed = s.cueUsed + cues.length := by
    have sum := s.cueUsed_modRoom r fun rm => { rm with draft := rm.draft ++ cues }
    simp only [RoomRec.cueCount, List.length_append] at sum
    omega
  simp only [State.reqDraftAppend, he, firstBad_none hc, filterMap_ofWords hc, length, used] <;> rfl

/-- Settles O45: by the checks of an append and of a commit. -/
theorem cueSequencesJudged : Obligations.CueSequencesJudged := by
  refine ⟨fun s h r hs => ⟨?_, fun body entries cues hb he hc hord hl hu => ?_, fun hrise => ?_, ?_⟩,
    fun s h r hs => ⟨fun body entries hb he => ⟨fun pre e post hsplit hbad hgood => ?_, fun pre c post n hc hord hn hle => ?_,
      fun cues hc hord hfull => ?_⟩, fun pre c post f g hd hf hg hlt hrise => ?_⟩⟩
  · exact exec_of_roomWrite rfl hs rfl rfl rfl (by simp) fun e => congrArg (fun r => s.reqDraftClear r) e
  · refine exec_draftAppend hs hb he ((State.reqDraftAppend_eq he hc).trans ?_)
    rw [firstDisorder_none hord]
    exact if_neg (by omega)
  · have used : (s.modRoom r RoomRec.commitDraft).cueUsed = s.cueUsed - (s.room r).list.length := by
      have sum := s.cueUsed_modRoom r RoomRec.commitDraft
      simp only [RoomRec.cueCount, RoomRec.commitDraft, RoomRec.placeCursor, List.length_nil] at sum
      omega
    refine exec_cueCommit hs ?_
    simp only [State.reqCommit, frameDisorder_none hrise, used, State.room_modRoom_self]
    exact congrArg (fun t : State => t.accept _) (State.modRoom_congr s r _ (fun _ => _) rfl)
  · refine exec_of_roomWrite rfl hs rfl rfl rfl (by simp) fun e => (congrArg (fun r => s.reqRewind r) e).trans ?_
    simp only [State.reqRewind, State.room_modRoom_self]
    rfl
  · refine exec_draftAppend hs hb he ?_
    simp only [State.reqDraftAppend, he, hsplit, firstBad_at hbad hgood]
    rfl
  · refine exec_draftAppend hs hb he ((State.reqDraftAppend_eq he hc).trans ?_)
    rw [firstDisorder_at hord hn hle]
    rfl
  · refine exec_draftAppend hs hb he ((State.reqDraftAppend_eq he hc).trans ?_)
    rw [firstDisorder_none hord]
    exact if_pos hfull
  · refine exec_cueCommit hs ?_
    simp only [State.reqCommit, hd, frameDisorder_at hf hg hlt hrise]
    rfl

end Sys2Proof.Machine
end

section
/-! Go requests and the ends of path ramps (O22 to O25). -/

namespace Sys2Proof.Machine

/-! ### What a change of a room's state leaves (R7, R68, R119) -/

theorem RoomRec.markEntry_of_still {rm : RoomRec} {left : RoomState} (h : rm.path.state.runs = false ∨ left.runs = true) :
    rm.markEntry left = rm := by
  refine if_neg fun k => ?_
  obtain ⟨k1, k2⟩ := Bool.and_eq_true_iff.1 k
  rcases h with h | h <;> simp_all

theorem RoomRec.markEntry_of_entry {rm : RoomRec} {left : RoomState} (h : rm.path.state.runs = true) (hl : left.runs = false) :
    rm.markEntry left = { rm with path := { rm.path with enteredInBlock := true } } := by
  exact if_pos (by rw [h, hl]; rfl)

section
variable {rm : RoomRec} {f : RoomRec → RoomRec} {own : List NoticeBody}

theorem RoomRec.afterTransit_of_not_live (h : rm.path.state ≠ .live) : rm.afterTransit f = (f rm).markEntry rm.path.state := by
  rw [RoomRec.afterTransit, if_neg fun k => h k.1]

theorem RoomRec.afterTransit_of_leaving (h : rm.path.state = .live) (hf : (f rm).path.state ≠ .live) :
    rm.afterTransit f = f rm.leavingLive := by
  rw [RoomRec.afterTransit, if_pos ⟨h, hf⟩, RoomRec.endDip_of_live h, RoomRec.markEntry_of_still (.inr (by rw [h]; rfl))]

theorem RoomRec.state_markEntry (rm : RoomRec) (left : RoomState) : (rm.markEntry left).path.state = rm.path.state :=
  RoomRec.markEntry_keeps (P := fun x => x.path.state = rm.path.state) left rfl fun _ h => h

/-- The notices of a change of state outside LIVE (R7). -/
theorem RoomRec.transitNotices_of_not_live (h : rm.path.state ≠ .live) (hf : (f rm).path.state ≠ rm.path.state) :
    rm.transitNotices own f = .roomState rm.path.state :: own := by
  have changes : ¬rm.path.state = (rm.afterTransit f).path.state := by
    rw [RoomRec.afterTransit_of_not_live h, RoomRec.state_markEntry]
    exact Ne.symm hf
  rw [RoomRec.transitNotices, if_neg changes, if_neg fun k => h k.1, List.append_nil]
  rfl

/-- The bank change that waits in a dip in flight, as the notice of its swap (R103). -/
def RoomRec.waitingSwap (rm : RoomRec) : List NoticeBody :=
  if rm.dip.stage = .idle then [] else rm.dip.bankSlot.toList.map fun n => .bankSwapped rm.bankInService n

/-- The notices of a room that leaves LIVE (R7, R68, R103). -/
theorem RoomRec.transitNotices_of_leaving (h : rm.path.state = .live) (hf : (f rm).path.state ≠ .live)
    (hl : (f rm.leavingLive).path.state ≠ .live) : rm.transitNotices [] f = .roomState .live :: rm.waitingSwap := by
  have changes : ¬rm.path.state = (rm.afterTransit f).path.state := by
    rw [RoomRec.afterTransit_of_leaving h hf, h]
    exact Ne.symm hl
  rw [RoomRec.transitNotices, if_neg changes, RoomRec.waitingSwap, h]
  by_cases hd : rm.dip.stage = .idle
  · rw [if_pos hd, if_neg fun k => k.2.2 hd]
    rfl
  · rw [if_neg hd, if_pos ⟨rfl, hf, hd⟩]
    rfl

end

theorem State.transit_onlyRoom (s : State) (r : Room) (own : List NoticeBody) (f : RoomRec → RoomRec) :
    s.onlyRoom (s.transit r own f) r := ⟨State.onlyRooms_transit s r own f, fun _ h => State.transit_room_ne s own f h⟩

theorem State.enterOff_onlyRoom (s : State) (r : Room) : s.onlyRoom (s.enterOff r) r :=
  ⟨State.onlyRooms_enterOff s r, fun _ h => State.transit_room_ne s [] RoomRec.toOff h⟩

theorem State.enterOff_room (s : State) (r : Room) : (s.enterOff r).room r = (s.room r).afterTransit RoomRec.toOff :=
  State.transit_room_self s r [] RoomRec.toOff

theorem State.enterOff_mgmt (s : State) (r : Room) :
    (s.enterOff r).mgmt = s.mgmt.told r ((s.enterOff r).room r) ((s.room r).transitNotices [] RoomRec.toOff) := by
  rw [State.enterOff_room]
  exact State.transit_mgmt s r [] RoomRec.toOff

/-- A room leaves LIVE with its path alone among what the change of state looks at. -/
theorem RoomRec.leavingLive_path (rm : RoomRec) : rm.leavingLive.path = rm.path := by
  unfold RoomRec.leavingLive
  dsimp only
  split <;> rfl

theorem RoomRec.leavingLive_list (rm : RoomRec) : rm.leavingLive.list = rm.list := by
  unfold RoomRec.leavingLive
  dsimp only
  split <;> rfl

theorem RoomRec.leavingLive_timers (rm : RoomRec) : rm.leavingLive.timers = rm.timers := by
  unfold RoomRec.leavingLive
  dsimp only
  split <;> rfl

theorem RoomRec.timers_toOff (rm : RoomRec) (i : Fin 4) :
    rm.toOff.timers[i] = { rm.timers[i] with running := false, remaining := 0, expiring := false } := by
  simp only [RoomRec.toOff, RoomRec.quietAll, RoomRec.cueTeardown, Fin.getElem_fin, Vector.getElem_ofFn, Timer.stop]

/-! ### The ends of path ramps (R25) -/

theorem exec_pathRampEnd {s : State} {r : Room} {q : Ramp} (ho : s.periodOpen = true) (hq : (s.room r).path.ramp = some q)
    (hn : q.len ≤ q.n) : exec (.pathRampEnd r) s = .next (s.rampEnd r) := by
  have due : State.rampDue r s = true := by
    show (s.room r).path.rampDue = true
    rw [Path.rampDue, hq]
    exact decide_eq_true hn
  show Host.Outcome.next (s.takeDue _ _) = _
  rw [State.takeDue_of_open ho, State.force, if_pos due]

/-- A LIVE room that ends in PARKED, with p 0 and its dip ended (R24, R25, R68). -/
theorem State.transit_toParked {s : State} {r : Room} (hlive : (s.room r).path.state = .live) :
    s.onlyRoom (s.transit r [] RoomRec.toParked) r ∧ (s.transit r [] RoomRec.toParked).alarms = s.alarms ∧
    (s.transit r [] RoomRec.toParked).mgmt =
      s.mgmt.told r ((s.transit r [] RoomRec.toParked).room r) (.roomState .live :: (s.room r).waitingSwap) ∧
    (s.transit r [] RoomRec.toParked).room r = { (s.room r).leavingLive with
      path := { (s.room r).path.noSequence with phase := .none, state := .parked, p := 0 } } := by
  have parked : ∀ rm : RoomRec, rm.toParked.path.state ≠ .live := fun _ => nofun
  refine ⟨s.transit_onlyRoom r _ _, State.transit_alarms .., ?_, ?_⟩
  · rw [State.transit_mgmt, State.transit_room_self, RoomRec.transitNotices_of_leaving hlive (parked _) (parked _)]
  · rw [State.transit_room_self, RoomRec.afterTransit_of_leaving hlive (parked _)]
    simp only [RoomRec.toParked, RoomRec.toPlain, Path.noSequence, RoomRec.leavingLive_path]

/-- The record of a room in OFF, from what it is as it enters it (R22, R138, R174). -/
theorem RoomRec.toOff_eq (rm : RoomRec) : rm.toOff = { rm with
    path := { rm.path.noSequence with phase := .none, state := .off, p := 0, proven := false, halt := .none, rackAbsence := 0 }
    conds := Vector.replicate 16 .quiet, rackCond := .quiet, mask := .none, cursor := baseOf rm.list
    timers := rm.toOff.timers } := rfl

theorem RoomRec.toOff_not_live (rm : RoomRec) : rm.toOff.path.state ≠ .live := nofun

theorem RoomRec.toOff_leavingLive (rm : RoomRec) : rm.leavingLive.toOff = { rm.leavingLive with
    path := { rm.path.noSequence with phase := .none, state := .off, p := 0, proven := false, halt := .none, rackAbsence := 0 }
    conds := Vector.replicate 16 .quiet, rackCond := .quiet, mask := .none, cursor := baseOf rm.list
    timers := rm.leavingLive.toOff.timers } := by
  rw [← RoomRec.leavingLive_path, ← RoomRec.leavingLive_list]
  exact RoomRec.toOff_eq _

/-- A room of LIVE that enters OFF has its dip ended first (R22, R68). -/
theorem State.enterOff_of_live {s : State} {r : Room} (hlive : (s.room r).path.state = .live) :
    (s.enterOff r).mgmt = s.mgmt.told r ((s.enterOff r).room r) (.roomState .live :: (s.room r).waitingSwap) ∧
    (s.enterOff r).room r = (s.room r).leavingLive.toOff := by
  have after : (s.room r).afterTransit RoomRec.toOff = (s.room r).leavingLive.toOff :=
    RoomRec.afterTransit_of_leaving hlive (RoomRec.toOff_not_live _)
  refine ⟨?_, by rw [State.enterOff_room, after]⟩
  rw [State.enterOff_mgmt, RoomRec.transitNotices_of_leaving hlive (RoomRec.toOff_not_live _) (RoomRec.toOff_not_live _)]

/-- Settles O22: by the phase of the ramp. -/
theorem pathRampEnds : Obligations.PathRampEnds := by
  intro s r q ho hq hn hlive
  have course := exec_pathRampEnd ho hq hn
  refine ⟨fun hph => ?_, fun hph => ?_, fun hph => ?_⟩
  · rw [course, State.rampEnd, hph]
    refine congrArg Host.Outcome.next (State.modRoom_congr s r _ _ ?_)
    simp only [RoomRec.toPlain, Path.noSequence, ← hlive]
  · have ends : s.rampEnd r = s.transit r [] RoomRec.toParked := by
      rw [State.rampEnd]
      rcases hph with hph | hph <;> rw [hph]
    exact ⟨s.transit r [] RoomRec.toParked, ends ▸ course, State.transit_toParked hlive⟩
  · have ends : s.rampEnd r = s.enterOff r := by
      rw [State.rampEnd, hph]
    obtain ⟨mgmt, room⟩ := State.enterOff_of_live hlive
    refine ⟨s.enterOff r, ends ▸ course, s.enterOff_onlyRoom r, mgmt, ?_, fun i => ?_, State.enterOff_alarms s r⟩
    · rw [room]
      exact RoomRec.toOff_leavingLive _
    · rw [room, RoomRec.timers_toOff, RoomRec.leavingLive_timers]

/-! ### Go requests: judged and answered (R14 to R24) -/

section
variable {s u : State} {h : Header} {r : Room} {t : GoTarget} {res : Result}

theorem State.goListen_result (s : State) (r : Room) : (s.goListen r).2 =
    if (s.room r).path.state = .off ∨ (s.room r).path.state = .halted then .ok else .wrongState := by
  unfold State.goListen
  cases (s.room r).path.state <;> rfl

theorem State.goProve_result (s : State) (r : Room) : (s.goProve r).2 =
    if (s.room r).path.state = .ready then .ok else if (s.room r).path.state = .listen then .seqBusy else .wrongState := by
  unfold State.goProve
  cases (s.room r).path.state
  case ready => dsimp only; split <;> rfl
  all_goals rfl

theorem State.goLive_result (s : State) (r : Room) : (s.goLive r).2 =
    if (s.room r).path.state = .ready ∧ (s.room r).path.proven = true ∨ (s.room r).path.state = .parked then .ok
    else if (s.room r).path.state = .listen ∨ (s.room r).path.state = .prove ∨
      ((s.room r).path.state = .live ∧ (s.room r).path.phase ≠ .none) then .seqBusy
    else .wrongState := by
  unfold State.goLive
  cases (s.room r).path.state
  case ready => cases (s.room r).path.proven <;> rfl
  case live => cases (s.room r).path.phase <;> rfl
  all_goals rfl

theorem State.goPark_result (s : State) (r : Room) : (s.goPark r).2 =
    if (s.room r).path.state = .live ∧ (s.room r).path.phase = .none then .ok
    else if (s.room r).path.state = .live ∧ (s.room r).path.phase = .rampingIn then .seqBusy
    else .wrongState := by
  unfold State.goPark
  cases (s.room r).path.state
  case live => cases (s.room r).path.phase <;> rfl
  all_goals rfl

theorem State.goOff_result (s : State) (r : Room) : (s.goOff r).2 = .ok := by
  unfold State.goOff
  cases (s.room r).path.state
  case live => dsimp only; split <;> rfl
  all_goals rfl

theorem State.goStop_result (s : State) (r : Room) : (s.goStop r).2 = .ok := by
  unfold State.goStop
  cases (s.room r).path.phase <;> rfl

/-- GO_OFF and GO_STOP, which the supply warning does not hold back (R14, R199). -/
def GoTarget.always (t : GoTarget) : Bool := t = .goOff || t = .goStop

theorem State.goJudge_supply (hs : s.supply = true) (ht : t.always = false) : s.goJudge r t = (s, .supplyLow) := by
  cases t
  case goOff | goStop => cases ht
  all_goals exact if_pos hs

theorem State.goJudge_of_clear (hs : s.supply ≠ true) : s.goJudge r t = match t with
    | .goOff => s.goOff r | .goStop => s.goStop r | .goListen => s.goListen r
    | .goProve => s.goProve r | .goLive => s.goLive r | .goPark => s.goPark r := by
  cases t
  case goOff | goStop => rfl
  all_goals exact if_neg hs

/-- The judgement of a go request by target, supply, state and phase (R14 to R24). -/
theorem State.goJudge_result (s : State) (r : Room) (t : GoTarget) : (s.goJudge r t).2 =
    if t = .goOff ∨ t = .goStop then .ok
    else if s.supply = true then .supplyLow
    else if t = .goListen then
      (if (s.room r).path.state = .off ∨ (s.room r).path.state = .halted then .ok else .wrongState)
    else if t = .goProve then
      (if (s.room r).path.state = .ready then .ok else if (s.room r).path.state = .listen then .seqBusy else .wrongState)
    else if t = .goLive then
      (if (s.room r).path.state = .ready ∧ (s.room r).path.proven = true ∨ (s.room r).path.state = .parked then .ok
      else if (s.room r).path.state = .listen ∨ (s.room r).path.state = .prove ∨
        ((s.room r).path.state = .live ∧ (s.room r).path.phase ≠ .none) then .seqBusy
      else .wrongState)
    else if (s.room r).path.state = .live ∧ (s.room r).path.phase = .none then .ok
    else if (s.room r).path.state = .live ∧ (s.room r).path.phase = .rampingIn then .seqBusy
    else .wrongState := by
  by_cases hs : s.supply = true
  · cases t
    case goOff => exact s.goOff_result r
    case goStop => exact s.goStop_result r
    all_goals rw [State.goJudge_supply hs rfl, if_neg (by decide), if_pos hs]
  · rw [State.goJudge_of_clear hs, if_neg hs]
    cases t
    case goOff => exact s.goOff_result r
    case goListen => exact s.goListen_result r
    case goProve => exact s.goProve_result r
    case goLive => exact s.goLive_result r
    case goPark => exact s.goPark_result r
    case goStop => exact s.goStop_result r

theorem exempt_go (hq : arg body 0 = t.code) (q : Request) (hb : q.body = body) : exempt .go q = t.always := by
  subst hb
  show decide (arg q.body 0 = 0 ∨ arg q.body 0 = 5) = _
  rw [hq]
  cases t <;> rfl

theorem arg_goCode (t : GoTarget) : arg [BitVec.ofNat 28 t.code] 0 = t.code := by
  cases t <;> rfl

theorem GoTarget.ofCode_code (t : GoTarget) : GoTarget.ofCode t.code = some t := by
  cases t <;> rfl

/-- The message of a go request. -/
def goMessage (h : Header) (t : GoTarget) : Request := messageOf h .go [BitVec.ofNat 28 t.code]

theorem State.levelPasses_go (hw : s.mayWrite h r) : s.levelPasses .go ((goMessage h t).room?.getD 0) (goMessage h t) = true := by
  obtain ⟨hr, hl, hg⟩ := hw
  rw [Request.room_getD (q := goMessage h t) hr]
  simp [State.levelPasses, Kind.levelClass, goMessage, messageOf, atMost, hl, hg]

theorem State.goForm_passes (hw : s.mayWrite h r) : Kind.go.form.passes (goMessage h t).room = true := by
  have hlt := r.isLt
  simp [Kind.form, RoomForm.passes, goMessage, messageOf, hw.1, hlt]

theorem exec_go (hl : s.listening) (hn : s.readable) (hw : s.mayWrite h r) (hs : s.supply = false ∨ t.always = true) :
    exec (.go h [BitVec.ofNat 28 t.code]) s = .next
      (if (s.goJudge r t).2 = .ok then (s.goJudge r t).1.replied h .go .ok
        [.bits 3 ((s.goJudge r t).1.room r).path.state.code, .bits 3 ((s.goJudge r t).1.room r).path.phase.code]
      else s.replied h .go (s.goJudge r t).2 []) := by
  have admitted : s.admission .go (goMessage h t) = none := by
    refine State.admission_passes (State.goForm_passes hw) hn (State.levelPasses_go hw) (hs.imp_right fun ht => .inr ?_)
    rw [exempt_go (arg_goCode t) _ rfl, ht]
  have room : (goMessage h t).room?.getD 0 = r := Request.room_getD hw.1
  have served : s.serve .go (goMessage h t) = s.reqGo r [BitVec.ofNat 28 t.code] := congrArg (fun r => s.reqGo r _) room
  have answer : s.serve .go (goMessage h t) =
      if (s.goJudge r t).2 = .ok then (s.goJudge r t).1.accept
        [.bits 3 ((s.goJudge r t).1.room r).path.state.code, .bits 3 ((s.goJudge r t).1.room r).path.phase.code]
      else s.refuse (s.goJudge r t).2 := by
    rw [served, State.reqGo, arg_goCode, GoTarget.ofCode_code]
    dsimp only
    split
    · rfl
    next hno => rw [((State.spares_goJudge r t).resolve_left hno : (s.goJudge r t).1 = s)]
  split at answer
  next hok => rw [if_pos hok]; exact exec_of_message rfl hl rfl (by simp) admitted answer
  next hno => rw [if_neg hno]; exact exec_of_message rfl hl rfl (by simp) admitted answer

/-- An accepted go request is answered with the state and phase after it (R14). -/
theorem exec_go_accepted (hl : s.listening) (hn : s.readable) (hw : s.mayWrite h r) (hs : s.supply = false ∨ t.always = true)
    (hj : s.goJudge r t = (u, .ok)) : exec (.go h [BitVec.ofNat 28 t.code]) s = .next (u.replied h .go .ok
      [.bits 3 (u.room r).path.state.code, .bits 3 (u.room r).path.phase.code]) := by
  rw [exec_go hl hn hw hs, hj, if_pos rfl]

/-- A refused go request, by the supply warning at step 5 or by the rule of its target, changes nothing (R14, R199). -/
theorem exec_go_refused (hl : s.listening) (hn : s.readable) (hw : s.mayWrite h r) (hno : (s.goJudge r t).2 ≠ .ok) :
    exec (.go h [BitVec.ofNat 28 t.code]) s = .next (s.replied h .go (s.goJudge r t).2 []) := by
  by_cases hs : s.supply = false ∨ t.always = true
  · rw [exec_go hl hn hw hs, if_neg hno]
  · obtain ⟨low, held⟩ := not_or.1 hs
    have low : s.supply = true := Bool.of_not_eq_false low
    have held : t.always = false := Bool.eq_false_iff.2 held
    rw [State.goJudge_supply low held]
    refine exec_of_refused (q := goMessage h t) (k := .go) rfl hl (messageOf_formed rfl (by simp)) ?_
    refine State.admission_supplyLow (State.goForm_passes hw) hn (State.levelPasses_go hw) low rfl ?_
    rw [exempt_go (arg_goCode t) _ rfl, held]

end

/-- Settles O23: by the target. -/
theorem goJudgedByStateAndPhase : Obligations.GoJudgedByStateAndPhase := by
  intro s r t
  have result : (s.goJudge r t).2 = _ := State.goJudge_result s r t
  dsimp only
  rw [← result]
  exact ⟨rfl, fun hno => (State.spares_goJudge r t).resolve_left hno, fun h hl hn hw hno => exec_go_refused hl hn hw hno⟩

/-! ### Changes of a room that is not in LIVE (R7) -/

section
variable {s : State} {h : Header} {r : Room} {t : GoTarget} {own : List NoticeBody} {f : RoomRec → RoomRec} {new : RoomRec}

/-- A room outside LIVE changes its state: its record, its notices and nothing else (R7). -/
theorem State.transit_plain (hst : (s.room r).path.state ≠ .live) (hf : (f (s.room r)).path.state ≠ (s.room r).path.state)
    (hnew : (f (s.room r)).markEntry (s.room r).path.state = new) :
    s.onlyRoom (s.transit r own f) r ∧ (s.transit r own f).alarms = s.alarms ∧
    (s.transit r own f).mgmt = s.mgmt.told r ((s.transit r own f).room r) (.roomState (s.room r).path.state :: own) ∧
    (s.transit r own f).room r = new := by
  refine ⟨s.transit_onlyRoom r _ _, State.transit_alarms .., ?_, ?_⟩
  · rw [State.transit_mgmt, State.transit_room_self, RoomRec.transitNotices_of_not_live hst hf]
  · rw [State.transit_room_self, RoomRec.afterTransit_of_not_live hst, hnew]

/-- A go request that changes the state of a room outside LIVE. -/
theorem exec_go_transit (hl : s.listening) (hn : s.readable) (hw : s.mayWrite h r) (hs : s.supply = false ∨ t.always = true)
    (hj : s.goJudge r t = (s.transit r own f, .ok)) (hst : (s.room r).path.state ≠ .live)
    (hf : (f (s.room r)).path.state ≠ (s.room r).path.state) (hnew : (f (s.room r)).markEntry (s.room r).path.state = new) :
    ∃ u, exec (.go h [BitVec.ofNat 28 t.code]) s = .next (u.replied h .go .ok [.bits 3 new.path.state.code, .bits 3 new.path.phase.code]) ∧
      s.onlyRoom u r ∧ u.alarms = s.alarms ∧
      u.mgmt = s.mgmt.told r (u.room r) (.roomState (s.room r).path.state :: own) ∧ u.room r = new := by
  have effect := State.transit_plain (own := own) hst hf hnew
  refine ⟨s.transit r own f, ?_, effect⟩
  rw [exec_go_accepted hl hn hw hs hj, effect.2.2.2]

/-! ### The lowest fitted channel (R17, R19) -/

theorem Path.lowestFitted_some {p : Path} {g : Chan → Bool} {k : Chan} (hk : (p.isFitted k && g k) = true)
    (hlow : ∀ j : Chan, j < k → (p.isFitted j && g j) = false) : p.lowestFitted g = some k := by
  refine List.find?_eq_some_iff_getElem.2 ⟨hk, k.val, by simp, by simp, fun j hj => ?_⟩
  rw [List.getElem_finRange, hlow _ (by simpa [Fin.lt_def] using hj)]
  rfl

theorem Path.lowestFitted_none {p : Path} {g : Chan → Bool} (h : ∀ j : Chan, (p.isFitted j && g j) = false) :
    p.lowestFitted g = none := by
  refine List.find?_eq_none.2 fun j _ => ?_
  rw [h j]
  exact Bool.false_ne_true

theorem Path.isFitted_of_empty {p : Path} (h : p.fitted = 0#16) (k : Chan) : p.isFitted k = false := by
  rw [Path.isFitted, h]
  exact BitVec.getLsbD_zero

end

/-! ### Go requests forward (R15, R17, R20, R21) -/

theorem RoomRec.toSettling_eq {rm : RoomRec} (h : rm.path.state = .off ∨ rm.path.state = .halted) : rm.toSettling = { rm with
    path := { rm.path.noSequence with state := .listen, phase := .settling, halt := .none, rackAbsence := 0 }
    cursor := if rm.path.state = .halted then rm.cursor else
      match rm.tc.last with
      | none => baseOf rm.list
      | some last => firstAt (fun f => decide (last < f)) rm.list } := by
  rcases h with h | h <;> rw [RoomRec.toSettling, h]
  · rw [if_pos rfl, if_neg (by decide)]
    simp only [RoomRec.placeCursor, RoomRec.placement]
    cases rm.tc.last <;> rfl
  · rw [if_neg (by decide), if_pos rfl]

/-- A room that is not fitted anew begins its proof on the lowest fitted channel (R17). -/
theorem RoomRec.toProve_of_some {rm : RoomRec} {k : Chan} (h : (rm.path.lowestFitted fun _ => true) = some k) :
    rm.toProve = { rm with path := { rm.path with
      state := .prove, phase := .proving, proven := false, proofPos := some ⟨k, 1⟩, nextAttempt := none, seqCount := 0,
      record := clearRecord.set k.val ⟨.untested, 1⟩ k.isLt } } := by
  unfold RoomRec.toProve
  dsimp only
  split
  next e => cases h.symm.trans e
  next j e =>
    obtain rfl := Option.some.inj (h.symm.trans e)
    simp only [Path.beginAttempt, Path.modRecord, clearRecord, Fin.getElem_fin, Vector.getElem_replicate]

theorem RoomRec.toProve_of_none {rm : RoomRec} (h : (rm.path.lowestFitted fun _ => true) = none) :
    rm.toProve = { rm with path := { rm.path with record := clearRecord, proven := true } } := by
  unfold RoomRec.toProve
  dsimp only
  split
  next e => rfl
  next j e => cases h.symm.trans e

/-- A proof without channels ends as it begins: the room stays in READY (R17). -/
theorem State.transit_toProve_of_none {s : State} {r : Room} {b : NoticeBody} (hst : (s.room r).path.state = .ready)
    (h : ((s.room r).path.lowestFitted fun _ => true) = none) :
    s.transit r [b] RoomRec.toProve = (s.modPath r fun p => { p with proven := true, record := clearRecord }).notify r b := by
  have stays : (s.room r).toProve.path.state = .ready := by rw [RoomRec.toProve_of_none h]; exact hst
  have remains : ¬((s.room r).path.state = .live ∧ (s.room r).toProve.path.state ≠ .live) := fun k => by
    rw [hst] at k
    cases k.1
  have plain : (s.room r).toProve.markEntry (s.room r).path.state = (s.room r).toProve :=
    RoomRec.markEntry_of_still (.inl (by rw [stays]; rfl))
  unfold State.transit
  dsimp only
  rw [if_neg remains, if_neg remains, plain, if_neg (by rw [stays, hst]; exact fun k => k rfl), List.foldl_cons, List.foldl_nil]
  exact congrArg (State.notify · r b) (State.modRoom_congr s r _ _ (RoomRec.toProve_of_none h))

/-- Settles O24: by the target, and READY and PARKED apart. -/
theorem goForwardAccepted : Obligations.GoForwardAccepted := by
  intro s h r hs
  obtain ⟨hl, ⟨hstore, hrestart, hsup⟩, hw⟩ := hs
  have hn : s.readable := ⟨hstore, hrestart⟩
  have clear : s.supply ≠ true := Bool.eq_false_iff.1 hsup
  refine ⟨fun hst => ?_, fun k hst hk hlow => ?_, fun hst hfit hph => ?_, fun hst hpr => ?_, fun hst => ?_, fun hst hph => ?_⟩
  · have judged : s.goJudge r .goListen = (s.transit r [] RoomRec.toSettling, .ok) := by
      rw [State.goJudge_of_clear clear]
      show s.goListen r = _
      rw [State.goListen]
      rcases hst with hst | hst <;> rw [hst]
    have outside : (s.room r).path.state ≠ .live ∧ RoomState.listen ≠ (s.room r).path.state := by
      rcases hst with hst | hst <;> rw [hst] <;> decide
    have effect := exec_go_transit (t := .goListen) hl hn hw (.inl hsup) judged outside.1
      (by rw [RoomRec.toSettling_eq hst]; exact outside.2)
      (RoomRec.markEntry_of_still (.inl (by rw [RoomRec.toSettling_eq hst]; rfl)))
    rw [RoomRec.toSettling_eq hst] at effect
    exact effect
  · have low : ((s.room r).path.lowestFitted fun _ => true) = some k :=
      Path.lowestFitted_some (by rw [hk]; rfl) fun j hj => by rw [hlow j hj]; rfl
    have judged : s.goJudge r .goProve = (s.transit r [] RoomRec.toProve, .ok) := by
      rw [State.goJudge_of_clear clear]
      show s.goProve r = _
      rw [State.goProve, hst]
      exact if_neg (by rw [low]; exact nofun)
    have effect := exec_go_transit (t := .goProve) hl hn hw (.inl hsup) judged (by rw [hst]; decide)
      (by rw [RoomRec.toProve_of_some low, hst]; exact nofun) (RoomRec.markEntry_of_still (.inl (by rw [RoomRec.toProve_of_some low]; rfl)))
    rw [RoomRec.toProve_of_some low, hst] at effect
    exact effect
  · have low : ((s.room r).path.lowestFitted fun _ => true) = none :=
      Path.lowestFitted_none fun j => by rw [Path.isFitted_of_empty hfit]; rfl
    have judged : s.goJudge r .goProve =
        ((s.modPath r fun p => { p with proven := true, record := clearRecord }).notify r (.proofDone true clearRecord), .ok) := by
      rw [State.goJudge_of_clear clear]
      show s.goProve r = _
      rw [State.goProve, hst, ← State.transit_toProve_of_none hst low]
      exact if_pos low
    have room : ((s.modPath r fun p => { p with proven := true, record := clearRecord }).notify r
        (.proofDone true clearRecord)).room r = { s.room r with path := { (s.room r).path with proven := true, record := clearRecord } } := by
      rw [State.room, State.notify_rooms]
      exact State.room_modRoom_self s r _
    have course := exec_go_accepted (t := .goProve) hl hn hw (.inl hsup) judged
    rw [room] at course
    dsimp only at course
    rw [hst, hph] at course
    exact course
  · have judged : s.goJudge r .goLive = (s.transit r [] RoomRec.toLiveFresh, .ok) := by
      rw [State.goJudge_of_clear clear]
      show s.goLive r = _
      rw [State.goLive, hst]
      exact if_pos hpr
    have effect := exec_go_transit (t := .goLive) hl hn hw (.inl hsup) judged (by rw [hst]; decide)
      (by rw [hst]; exact nofun) (RoomRec.markEntry_of_entry rfl (by rw [hst]; rfl))
    rw [hst] at effect
    simp only [RoomRec.toLiveFresh, RoomRec.zeroHistory, RoomRec.zeroDecode, Option.map_map] at effect
    exact effect
  · have judged : s.goJudge r .goLive = (s.transit r [] RoomRec.toLive, .ok) := by
      rw [State.goJudge_of_clear clear]
      show s.goLive r = _
      rw [State.goLive, hst]
    have effect := exec_go_transit (t := .goLive) hl hn hw (.inl hsup) judged (by rw [hst]; decide)
      (by rw [hst]; exact nofun) (RoomRec.markEntry_of_still (.inr (by rw [hst]; rfl)))
    rw [hst] at effect
    exact effect
  · have judged : s.goJudge r .goPark = (s.modPath r fun p => p.beginRamp .rampingOutPark 0 480, .ok) := by
      rw [State.goJudge_of_clear clear]
      show s.goPark r = _
      rw [State.goPark, hst, hph, if_pos rfl]
      rfl
    have room : (s.modPath r fun p => p.beginRamp .rampingOutPark 0 480).room r =
        { s.room r with path := (s.room r).path.beginRamp .rampingOutPark 0 480 } := State.room_modRoom_self s r _
    have course := exec_go_accepted (t := .goPark) hl hn hw (.inl hsup) judged
    rw [room] at course
    have state : ((s.room r).path.beginRamp .rampingOutPark 0 480).state = .live := hst
    dsimp only at course
    rw [state] at course
    exact course

/-! ### GO_OFF and GO_STOP (R22 to R24) -/

/-- The state a phase other than none belongs to (R3). -/
def Phase.home : Phase → RoomState
  | .settling | .debouncing => .listen
  | .proving => .prove
  | _ => .live

theorem RoomState.eq_home {st : RoomState} {ph : Phase} (h : st.hasPhase ph = true) (hp : ph ≠ .none) : st = ph.home := by
  revert h hp
  cases ph <;> cases st <;> decide

/-- The notices of a bank change that waits, as a LIVE room leaves (R103). -/
theorem RoomRec.waitingSwap_of_live {rm : RoomRec} (h : rm.path.state = .live) :
    (if rm.path.state ≠ .live ∨ rm.dip.stage = .idle then []
      else rm.dip.bankSlot.toList.map fun n => NoticeBody.bankSwapped rm.bankInService n) = rm.waitingSwap := by
  refine if_congr ?_ rfl rfl
  rw [h]
  exact or_iff_right fun k => k rfl

section
variable {s : State} {h : Header} {r : Room} {t : GoTarget}

/-- A room outside LIVE enters OFF at once (R22 to R24). -/
theorem State.enterOff_plain (hst : (s.room r).path.state ≠ .live) (hoff : (s.room r).path.state ≠ .off) :
    (s.enterOff r).mgmt = s.mgmt.told r ((s.enterOff r).room r) [.roomState (s.room r).path.state] ∧
    (s.enterOff r).room r = (s.room r).toOff := by
  refine ⟨?_, ?_⟩
  · rw [State.enterOff_mgmt, RoomRec.transitNotices_of_not_live hst (Ne.symm hoff)]
  · rw [State.enterOff_room, RoomRec.afterTransit_of_not_live hst]
    exact RoomRec.markEntry_of_still (.inl rfl)

/-- A go request that takes a room outside LIVE to OFF. -/
theorem exec_go_off (hl : s.listening) (hn : s.readable) (hw : s.mayWrite h r) (ht : t.always = true)
    (hj : s.goJudge r t = (s.enterOff r, .ok)) (hst : (s.room r).path.state ≠ .live) (hoff : (s.room r).path.state ≠ .off) :
    ∃ u : State, exec (.go h [BitVec.ofNat 28 t.code]) s = .next (u.replied h .go .ok [.bits 3 0, .bits 3 0]) ∧ s.onlyRoom u r ∧
      u.room r = { s.room r with
        path := { (s.room r).path.noSequence with
          phase := .none, state := .off, p := 0, proven := false, halt := .none, rackAbsence := 0 }
        conds := Vector.replicate 16 .quiet, rackCond := .quiet, mask := .none, timers := (u.room r).timers,
        cursor := baseOf (s.room r).list } ∧
      (∀ i : Fin 4, (u.room r).timers[i] = { (s.room r).timers[i] with running := false, remaining := 0, expiring := false }) ∧
      u.alarms = s.alarms.filter (fun e => e.room ≠ r) ∧ u.mgmt = s.mgmt.told r (u.room r) (.roomState (s.room r).path.state ::
        if (s.room r).path.state ≠ .live ∨ (s.room r).dip.stage = .idle then []
        else (s.room r).dip.bankSlot.toList.map fun n => .bankSwapped (s.room r).bankInService n) := by
  obtain ⟨mgmt, room⟩ := State.enterOff_plain hst hoff
  refine ⟨s.enterOff r, ?_, s.enterOff_onlyRoom r, ?_, fun i => ?_, State.enterOff_alarms s r, ?_⟩
  · rw [exec_go_accepted hl hn hw (.inr ht) hj, room]
    rfl
  · rw [room]
    exact RoomRec.toOff_eq _
  · rw [room, RoomRec.timers_toOff]
  · rw [if_pos (.inl hst), mgmt]

end

/-- Settles O25: by the target and the phase. -/
theorem goOffAndStopAccepted : Obligations.GoOffAndStopAccepted := by
  intro s h r hl hn hw hph
  have home {ph : Phase} (e : (s.room r).path.phase = ph) (hp : ph ≠ .none) : (s.room r).path.state = ph.home :=
    RoomState.eq_home (e ▸ hph) hp
  refine ⟨fun hst hoff => ?_, fun hst => ?_, fun hoff hst => ?_, fun hp => ?_, fun hp => ?_, fun hp => ?_, fun hp => ?_, fun hp => ?_⟩
  · have judged : s.goJudge r .goOff = (s.modPath r fun p => p.beginRamp .rampingOutOff 0 480, .ok) := by
      show s.goOff r = _
      rw [State.goOff, hst]
      exact if_neg hoff
    have room : (s.modPath r fun p => p.beginRamp .rampingOutOff 0 480).room r =
        { s.room r with path := (s.room r).path.beginRamp .rampingOutOff 0 480 } := State.room_modRoom_self s r _
    have course := exec_go_accepted (t := .goOff) hl hn hw (.inr rfl) judged
    rw [room] at course
    have state : ((s.room r).path.beginRamp .rampingOutOff 0 480).state = .live := hst
    dsimp only at course
    rw [state] at course
    exact course
  · have judged : s.goJudge r .goOff = (s, .ok) := by
      show s.goOff r = _
      rcases hst with hst | ⟨hst, hp⟩ <;> rw [State.goOff, hst]
      exact if_pos hp
    exact exec_go_accepted (t := .goOff) hl hn hw (.inr rfl) judged
  · have judged : s.goJudge r .goOff = (s.enterOff r, .ok) := by
      show s.goOff r = _
      unfold State.goOff
      split <;> simp_all
    exact exec_go_off hl hn hw rfl judged hst hoff
  · have listen : (s.room r).path.state = .listen := by
      rcases hp with hp | hp <;> exact home hp (by decide)
    have judged : s.goJudge r .goStop = (s.enterOff r, .ok) := by
      show s.goStop r = _
      rcases hp with hp | hp <;> rw [State.goStop, hp]
    exact exec_go_off hl hn hw rfl judged (by rw [listen]; decide) (by rw [listen]; decide)
  · have prove : (s.room r).path.state = .prove := home hp (by decide)
    have judged : s.goJudge r .goStop = (s.transit r [] RoomRec.toReadyCancelled, .ok) := by
      show s.goStop r = _
      rw [State.goStop, hp]
    have effect := exec_go_transit (t := .goStop) hl hn hw (.inr rfl) judged (by rw [prove]; decide)
      (by rw [prove]; exact nofun) (RoomRec.markEntry_of_still (.inl rfl))
    rw [if_pos (.inl (by rw [prove]; decide))]
    exact effect
  · have live : (s.room r).path.state = .live := by
      rcases hp with hp | hp <;> exact home hp (by decide)
    have judged : s.goJudge r .goStop = (s.transit r [] RoomRec.toParked, .ok) := by
      show s.goStop r = _
      rcases hp with hp | hp <;> rw [State.goStop, hp]
    have effect := State.transit_toParked live
    have course := exec_go_accepted (t := .goStop) hl hn hw (.inr rfl) judged
    rw [effect.2.2.2] at course
    rw [RoomRec.waitingSwap_of_live live, live]
    exact ⟨_, course, effect⟩
  · have live : (s.room r).path.state = .live := home hp (by decide)
    have judged : s.goJudge r .goStop = (s.enterOff r, .ok) := by
      show s.goStop r = _
      rw [State.goStop, hp]
    obtain ⟨mgmt, room⟩ := State.enterOff_of_live live
    have course := exec_go_accepted (t := .goStop) hl hn hw (.inr rfl) judged
    rw [room] at course
    rw [RoomRec.waitingSwap_of_live live, live]
    refine ⟨_, course, s.enterOff_onlyRoom r, mgmt, ?_, fun i => ?_, State.enterOff_alarms s r⟩
    · rw [room]
      exact RoomRec.toOff_leavingLive _
    · rw [room, RoomRec.timers_toOff, RoomRec.leavingLive_timers]
  · have judged : s.goJudge r .goStop = (s, .ok) := by
      show s.goStop r = _
      rcases hp with hp | hp <;> rw [State.goStop, hp]
    exact exec_go_accepted (t := .goStop) hl hn hw (.inr rfl) judged

end Sys2Proof.Machine
end

section
/-! The rack word: O15 to O18 (R8 to R16). -/

namespace Sys2Proof.Machine

/-! ### The last rack word (R8, R13) -/

/-- The path with the rack word of the period. -/
def Path.storeWord (p : Path) (w : RackWord) : Path := { p with lastRack := w, rackTaken := true }

section
variable {s t u : State} {r : Room} {w : RackWord}

theorem State.onlyRoom_trans (h : s.onlyRoom t r) (k : t.onlyRoom u r) : s.onlyRoom u r :=
  ⟨State.onlyRooms_trans h.1 k.1, fun q hq => (k.2 q hq).trans (h.2 q hq)⟩

theorem State.onlyRoom_modRoom (s : State) (r : Room) (f : RoomRec → RoomRec) : s.onlyRoom (s.modRoom r f) r :=
  ⟨State.onlyRooms_modRoom s r f, fun _ hq => State.room_modRoom_ne s f hq⟩

theorem State.onlyRoom_notify (s : State) (r : Room) (b : NoticeBody) : s.onlyRoom (s.notify r b) r :=
  ⟨State.onlyRooms_notify s r b, fun _ _ => rfl⟩

@[simp] theorem State.room_modPath_self (s : State) (r : Room) (f : Path → Path) :
    (s.modPath r f).room r = { s.room r with path := f (s.room r).path } :=
  State.room_modRoom_self s r _

theorem State.storeRack_quiet (h : (s.room r).path.wakes w = false) : s.storeRack r w = s.modPath r (Path.storeWord · w) := by
  rw [State.storeRack, h]
  rfl

theorem State.storeRack_wakes (h : (s.room r).path.wakes w = true) :
    s.storeRack r w = (s.modPath r (Path.storeWord · w)).notify r .rackWake := by
  rw [State.storeRack, h]
  rfl

theorem State.storeRack_onlyRoom (s : State) (r : Room) (w : RackWord) : s.onlyRoom (s.storeRack r w) r := by
  unfold State.storeRack
  dsimp only
  split
  · exact State.onlyRoom_trans (s.onlyRoom_modRoom r _) (State.onlyRoom_notify _ _ _)
  · exact s.onlyRoom_modRoom r _

@[simp] theorem State.storeRack_alarms (s : State) (r : Room) (w : RackWord) : (s.storeRack r w).alarms = s.alarms := by
  unfold State.storeRack
  dsimp only
  split <;> rfl

theorem Path.wakes_of_not_parked {p : Path} (h : p.state ≠ .parked) (w : RackWord) : p.wakes w = false := by
  rw [Path.wakes, decide_eq_false h]
  rfl

theorem State.storeRack_of_not_parked (h : (s.room r).path.state ≠ .parked) (w : RackWord) :
    s.storeRack r w = s.modPath r (Path.storeWord · w) :=
  State.storeRack_quiet (Path.wakes_of_not_parked h w)

/-! ### What a rack word does by the state (R9 to R16) -/

theorem State.takeRack_idle (h : (s.room r).path.state = .off ∨ (s.room r).path.state = .halted) :
    s.takeRack r w = s.storeRack r w := by
  rcases h with h | h <;> rw [State.takeRack, h]

theorem State.takeRack_listen (h : (s.room r).path.state = .listen) : s.takeRack r w =
    if (s.room r).path.phase = .debouncing then (s.storeRack r w).debounce r w.present else s.storeRack r w := by
  rw [State.takeRack, h]

theorem State.takeRack_observed (h : (s.room r).path.state = .ready ∨ (s.room r).path.state = .live ∨ (s.room r).path.state = .parked) :
    s.takeRack r w = (s.storeRack r w).observe r w.present := by
  rcases h with h | h | h <;> rw [State.takeRack, h]

theorem State.takeRack_prove_loss (h : (s.room r).path.state = .prove) (hl : (s.room r).path.completesLoss w.present = true) :
    s.takeRack r w = (s.storeRack r w).rackLoss r := by
  rw [State.takeRack, h]
  exact if_pos hl

theorem State.takeRack_prove (h : (s.room r).path.state = .prove) (hl : (s.room r).path.completesLoss w.present = false) :
    s.takeRack r w = ((s.storeRack r w).observe r w.present).judgeReturn r w := by
  rw [State.takeRack, h]
  exact if_neg (Bool.eq_false_iff.1 hl)

theorem State.observe_counts {b : Bool} (h : (s.room r).path.completesLoss b = false) :
    s.observe r b = s.modPath r (Path.countAbsence · b) :=
  if_neg (Bool.eq_false_iff.1 h)

theorem State.observe_loss {b : Bool} (h : (s.room r).path.completesLoss b = true) : s.observe r b = s.rackLoss r :=
  if_pos h

theorem Path.completesLoss_absent {p : Path} (h : 2399 ≤ p.rackAbsence) : p.completesLoss false = true :=
  decide_eq_true (Nat.succ_le_succ h)

theorem Path.completesLoss_present {p : Path} {b : Bool} (h : b = true ∨ p.rackAbsence + 1 < 2400) : p.completesLoss b = false := by
  rcases h with h | h
  · rw [h]
    rfl
  · have short : ¬Config.rackLoss ≤ p.rackAbsence + 1 := Nat.not_le.2 h
    rw [Path.completesLoss, decide_eq_false short, Bool.and_false]

theorem State.modPath_congr {f g : Path → Path} (h : f (s.room r).path = g (s.room r).path) : s.modPath r f = s.modPath r g :=
  State.modRoom_congr s r _ _ (congrArg (fun p => { s.room r with path := p }) h)

theorem State.modPath_modPath (s : State) (r : Room) (f g : Path → Path) : (s.modPath r f).modPath r g = s.modPath r fun p => g (f p) :=
  State.modRoom_modRoom s r _ _

/-- A word that completes no loss in READY, LIVE or PARKED, and wakes nothing (R9). -/
theorem State.takeRack_counts (h : (s.room r).path.state = .ready ∨ (s.room r).path.state = .live ∨ (s.room r).path.state = .parked)
    (hw : (s.room r).path.wakes w = false) (hl : (s.room r).path.completesLoss w.present = false) :
    s.takeRack r w = s.modPath r fun p => (p.storeWord w).countAbsence w.present := by
  rw [State.takeRack_observed h, State.observe_counts (by rw [State.storeRack_room]; exact hl), State.storeRack_quiet hw,
    State.modPath_modPath]

/-- A word in PROVE that completes no loss has its presence counted, and its return is judged (R9, R18). -/
theorem State.takeRack_judged (h : (s.room r).path.state = .prove) (hl : (s.room r).path.completesLoss w.present = false) :
    s.takeRack r w = (s.modPath r fun p => (p.storeWord w).countAbsence w.present).judgeReturn r w := by
  rw [State.takeRack_prove h hl, State.observe_counts (by rw [State.storeRack_room]; exact hl),
    State.storeRack_of_not_parked (by rw [h]; decide), State.modPath_modPath]

/-! ### The debounce run (R16) -/

theorem State.debounce_absent (hh : (s.room r).path.debounceHeld = false) :
    s.debounce r false = s.modPath r fun p => { p with seqCount := 0 } := by
  rw [State.debounce, hh]
  rfl

theorem State.debounce_counts (hh : (s.room r).path.debounceHeld = false) (hc : (s.room r).path.seqCount + 1 < 12000) :
    s.debounce r true = s.modPath r fun p => { p with seqCount := p.seqCount + 1 } := by
  rw [State.debounce, hh]
  exact if_neg (Nat.not_le.2 hc)

theorem State.debounce_completes (hh : (s.room r).path.debounceHeld = false) (hc : 11999 ≤ (s.room r).path.seqCount) :
    s.debounce r true = s.debounceDone r := by
  rw [State.debounce, hh]
  exact if_pos (Nat.succ_le_succ hc)

/-! ### The return of an attempt (R18) -/

theorem State.judgeReturn_idle (h : (s.room r).path.attemptRunning = none) : s.judgeReturn r w = s := by
  rw [State.judgeReturn, h]

theorem State.judgeReturn_passes {pos : ProofPos} (h : (s.room r).path.attemptRunning = some pos)
    (hp : (s.room r).path.returnPasses w = true) :
    s.judgeReturn r w = (s.modPath r (Path.sendPilot · pos.chan)).channelDone r pos.chan .passed := by
  rw [State.judgeReturn, h]
  exact if_pos hp

theorem State.judgeReturn_fails {pos : ProofPos} (h : (s.room r).path.attemptRunning = some pos)
    (hp : (s.room r).path.returnPasses w = false) :
    s.judgeReturn r w = (s.modPath r (Path.sendPilot · pos.chan)).attemptTimeout r := by
  rw [State.judgeReturn, h]
  exact if_neg (Bool.eq_false_iff.1 hp)

theorem State.attemptTimeout_early (h : (s.room r).path.seqCount < 1920) : s.attemptTimeout r = s := by
  have early : ¬Config.pilotAttempt ≤ (s.room r).path.seqCount := Nat.not_le.2 h
  rw [State.attemptTimeout, Path.attemptOver, if_neg early]

theorem Path.returnPasses_eq_false {p : Path} (h : w.valid = false ∨ w.level < p.proofMin ∨ p.proofMax < w.level) :
    p.returnPasses w = false := by
  rcases h with h | h
  · rw [Path.returnPasses, h]
    rfl
  · rw [Path.returnPasses, decide_eq_false (by omega), Bool.and_false]

/-- The pilot that the period of a judged word carries, with the one of an attempt that runs (R18). -/
def Path.pilotOf (p : Path) : Option (Chan × Nat) :=
  match p.attemptRunning with
  | some pos => some (pos.chan, p.seqCount)
  | none => p.pilotSent

/-- The path with the pilot of a judged word (R18). -/
def Path.judgedPilot (p : Path) : Path := { p with pilotSent := p.pilotOf }

theorem Path.judgedPilot_of_not_running {p : Path} (h : p.attemptRunning = none) : p.judgedPilot = p := by
  rw [Path.judgedPilot, Path.pilotOf, h]

theorem Path.judgedPilot_of_running {p : Path} {pos : ProofPos} (h : p.attemptRunning = some pos) :
    p.judgedPilot = p.sendPilot pos.chan := by
  rw [Path.judgedPilot, Path.pilotOf, h]
  rfl

theorem Path.pilotOf_eq (p : Path) : p.pilotOf = match p.proofPos with
    | some pos => if p.state = .prove ∧ p.nextAttempt = none ∧ 0 < p.seqCount then some (pos.chan, p.seqCount) else p.pilotSent
    | none => p.pilotSent := by
  unfold Path.pilotOf Path.attemptRunning
  by_cases h : p.state = .prove ∧ p.nextAttempt = none ∧ 0 < p.seqCount
  · rw [if_pos h]
    cases p.proofPos <;> simp only [if_pos h]
  · rw [if_neg h]
    cases p.proofPos <;> simp only [if_neg h]

/-- A judged word that neither passes the attempt nor finds it over leaves its pilot (R18). -/
theorem State.judgeReturn_waits (h : (s.room r).path.nextAttempt ≠ none ∨ (s.room r).path.seqCount = 0 ∨
    ((s.room r).path.seqCount < 1920 ∧
      (w.valid = false ∨ w.level < (s.room r).path.proofMin ∨ (s.room r).path.proofMax < w.level))) :
    s.judgeReturn r w = s.modPath r Path.judgedPilot := by
  cases hr : (s.room r).path.attemptRunning with
  | none =>
    rw [State.judgeReturn_idle hr]
    refine (State.modRoom_self s r _ ?_).symm
    rw [Path.judgedPilot_of_not_running hr]
  | some pos =>
    have running : (s.room r).path.nextAttempt = none ∧ 0 < (s.room r).path.seqCount := by
      unfold Path.attemptRunning at hr
      split at hr
      next k => exact k.2
      next => cases hr
    obtain ⟨early, no⟩ := (h.resolve_left fun k => k running.1).resolve_left running.2.ne'
    rw [State.judgeReturn_fails hr (Path.returnPasses_eq_false no),
      State.attemptTimeout_early (by rw [State.room_modPath_self]; exact early)]
    exact State.modPath_congr (Path.judgedPilot_of_running hr).symm

/-! ### The rows that take a rack word (R8, R9, R16) -/

theorem exec_rackWord (ho : s.periodOpen = true) (w : Option Word) :
    exec (.rackWord r w) s = .next (s.takeRack r (RackWord.ofFrame w)) :=
  congrArg (fun x : State => Host.Outcome.next (x.takeRack r (RackWord.ofFrame w))) (State.openPeriod_of_open ho)

theorem exec_rackLoss (ho : s.periodOpen = true) {w : Option Word} (hw : (RackWord.ofFrame w).present = false)
    (hst : (s.room r).path.state.observed = true) (ha : 2399 ≤ (s.room r).path.rackAbsence) (ht : (s.room r).path.rackTaken = false) :
    exec (.rackLoss r w) s = .next (s.takeRack r (RackWord.ofFrame w)) := by
  have due : State.rackLossDue r (RackWord.ofFrame w) s = true := by
    rw [State.rackLossDue, ht, hst, hw, Path.completesLoss_absent ha]
    rfl
  show Host.Outcome.next (s.takeDue _ _) = _
  rw [State.takeDue_of_open ho, State.force, if_pos due]

theorem exec_debounceComplete (ho : s.periodOpen = true) {w : Word} (hst : (s.room r).path.state = .listen)
    (hph : (s.room r).path.phase = .debouncing) (hh : (s.room r).path.debounceHeld = false) (hc : 11999 ≤ (s.room r).path.seqCount)
    (hw : (RackWord.ofWord w).present = true) (ht : (s.room r).path.rackTaken = false) :
    exec (.debounceComplete r w) s = .next (s.takeRack r (RackWord.ofWord w)) := by
  have due : State.debounceDue r (RackWord.ofWord w) s = true :=
    decide_eq_true ⟨ht, hst, hph, hh, hw, Nat.succ_le_succ hc⟩
  show Host.Outcome.next (s.takeDue _ _) = _
  rw [State.takeDue_of_open ho, State.force, if_pos due]

end

/-- Settles O15: by the state and phase. -/
theorem rackWordCounts : Obligations.RackWordCounts := by
  refine ⟨fun s r w => ?_, fun s r w ho => ?_⟩
  · rw [exec_rackWord s.periodOpen_openPeriod]
    rfl
  rw [exec_rackWord ho]
  refine ⟨fun h => congrArg Host.Outcome.next ?_, fun hst hph hh => ⟨fun hw => congrArg Host.Outcome.next ?_,
    fun hw hc => congrArg Host.Outcome.next ?_⟩, fun h => ?_, fun hst hw hlast hl => congrArg Host.Outcome.next ?_⟩
  · have stored : s.takeRack r (RackWord.ofFrame w) = s.storeRack r (RackWord.ofFrame w) := by
      rcases h with h | h | ⟨h, held⟩
      · exact State.takeRack_idle (.inl h)
      · exact State.takeRack_idle (.inr h)
      rw [State.takeRack_listen h]
      rcases held with held | held
      · exact if_neg held
      · rw [State.debounce, State.storeRack_room]
        exact ite_eq_right_iff.2 fun _ => if_pos held
    rw [stored, State.storeRack_of_not_parked]
    · rfl
    · rcases h with h | h | ⟨h, -⟩ <;> rw [h] <;> decide
  · rw [State.takeRack_listen hst, if_pos hph, hw, State.debounce_absent (by rw [State.storeRack_room]; exact hh),
      State.storeRack_of_not_parked (by rw [hst]; decide), State.modPath_modPath]
    rfl
  · rw [State.takeRack_listen hst, if_pos hph, hw,
      State.debounce_counts (by rw [State.storeRack_room]; exact hh) (by rw [State.storeRack_room]; exact hc),
      State.storeRack_of_not_parked (by rw [hst]; decide), State.modPath_modPath]
    rfl
  · have counted (hl : (s.room r).path.completesLoss (RackWord.ofFrame w).present = false) : s.takeRack r (RackWord.ofFrame w) =
        s.modPath r fun p => ((p.storeWord (RackWord.ofFrame w)).countAbsence (RackWord.ofFrame w).present).judgedPilot := by
      have plain (hst : (s.room r).path.state ≠ .prove) : (s.modPath r fun p =>
            ((p.storeWord (RackWord.ofFrame w)).countAbsence (RackWord.ofFrame w).present).judgedPilot) =
          s.modPath r fun p => (p.storeWord (RackWord.ofFrame w)).countAbsence (RackWord.ofFrame w).present :=
        State.modPath_congr (Path.judgedPilot_of_not_running (if_neg fun k => hst k.1))
      rcases h with h | h | ⟨h, hw⟩ | ⟨h, hw⟩
      · rw [plain (by rw [h]; decide)]
        exact State.takeRack_counts (.inl h) (Path.wakes_of_not_parked (by rw [h]; decide) _) hl
      · rw [plain (by rw [h]; decide)]
        exact State.takeRack_counts (.inr (.inl h)) (Path.wakes_of_not_parked (by rw [h]; decide) _) hl
      · rw [plain (by rw [h]; decide)]
        refine State.takeRack_counts (.inr (.inr h)) ?_ hl
        rcases hw with hw | hw <;> simp [Path.wakes, hw]
      · rw [State.takeRack_judged h hl, State.judgeReturn_waits (by rw [State.room_modPath_self]; exact hw), State.modPath_modPath]
    refine ⟨fun hw => congrArg Host.Outcome.next ?_, fun hw hl => congrArg Host.Outcome.next ?_⟩
    · rw [counted (Path.completesLoss_present (.inl hw)), hw]
      refine State.modPath_congr ?_
      simp only [Path.judgedPilot, Path.pilotOf_eq, Path.countAbsence, Path.storeWord] <;> rfl
    · rw [counted (Path.completesLoss_present (.inr hl)), hw]
      refine State.modPath_congr ?_
      simp only [Path.judgedPilot, Path.pilotOf_eq, Path.countAbsence, Path.storeWord] <;> rfl
  · have wakes : (s.room r).path.wakes (RackWord.ofFrame w) = true := by simp [Path.wakes, hst, hw, hlast]
    rw [State.takeRack_observed (.inr (.inr hst)),
      State.observe_counts (by rw [State.storeRack_room]; exact Path.completesLoss_present hl), State.storeRack_wakes wakes]
    rfl

/-! ### A rack loss (R9 to R12) -/

theorem RoomRec.leavingLive_of_not_live {rm : RoomRec} (h : rm.path.state ≠ .live) : rm.leavingLive = rm :=
  if_pos (.inl h)

/-- The rack word changes the path alone of what a room that leaves LIVE leaves with. -/
theorem RoomRec.leavingLive_withPath (rm : RoomRec) {p : Path} (h : p.state = rm.path.state) :
    { rm with path := p }.leavingLive = { rm.leavingLive with path := p } := by
  unfold RoomRec.leavingLive
  dsimp only
  rw [h]
  by_cases k : rm.path.state ≠ .live ∨ rm.dip.stage = .idle
  · rw [if_pos k, if_pos k]
  · rw [if_neg k, if_neg k]
    rfl

/-- A room that enters HALTED from LIVE or PARKED, with its dip ended (R12, R68). -/
theorem RoomRec.afterTransit_toHalted {rm : RoomRec} : rm.afterTransit RoomRec.toHalted = rm.leavingLive.toHalted := by
  by_cases h : rm.path.state = .live
  · exact RoomRec.afterTransit_of_leaving h nofun
  · rw [RoomRec.afterTransit_of_not_live h, RoomRec.leavingLive_of_not_live h]
    exact RoomRec.markEntry_of_still (.inl rfl)

theorem RoomRec.transitNotices_toHalted {rm : RoomRec} (h : rm.path.state ≠ .halted) :
    rm.transitNotices [] RoomRec.toHalted = .roomState rm.path.state ::
      if rm.path.state = .live ∧ rm.dip.stage ≠ .idle then
        rm.dip.bankSlot.toList.map fun n => .bankSwapped rm.bankInService n
      else [] := by
  have changes : ¬rm.path.state = (rm.afterTransit RoomRec.toHalted).path.state := by
    rw [RoomRec.afterTransit_toHalted]
    exact h
  rw [RoomRec.transitNotices, if_neg changes]
  refine congrArg (NoticeBody.roomState rm.path.state :: ·) (if_congr ?_ rfl rfl)
  exact and_congr_right fun _ => and_iff_right nofun

section
variable {s : State} {r : Room} {w : RackWord}

/-- The notices of a rack word ahead of what it brings about (R13). -/
theorem State.storeRack_mgmt (s : State) (r : Room) (w : RackWord) : (s.storeRack r w).mgmt =
    if (s.room r).path.state = .parked ∧ w.wake = true ∧ (s.room r).path.lastRack.wake = false then
      s.mgmt.told r (s.room r) [.rackWake]
    else s.mgmt := by
  have wakes : (s.room r).path.wakes w = true ↔
      (s.room r).path.state = .parked ∧ w.wake = true ∧ (s.room r).path.lastRack.wake = false := by
    simp [Path.wakes, and_assoc]
  by_cases h : (s.room r).path.wakes w = true
  · rw [State.storeRack_wakes h, if_pos (wakes.1 h)]
    show s.mgmt.told r ((s.modPath r _).room r) [.rackWake] = _
    rw [State.room_modPath_self]
    rfl
  · rw [State.storeRack_quiet (Bool.eq_false_iff.2 h), if_neg (mt wakes.2 h)]
    rfl

/-- A word that completes a loss in LIVE or PARKED (R12). -/
theorem State.takeRack_halts (hst : (s.room r).path.state = .live ∨ (s.room r).path.state = .parked)
    (hl : (s.room r).path.completesLoss w.present = true) : s.takeRack r w = (s.storeRack r w).enterHalted r := by
  have stored : ((s.storeRack r w).room r).path.state = (s.room r).path.state := by rw [State.storeRack_room]
  rw [State.takeRack_observed (.inr hst), State.observe_loss (by rw [State.storeRack_room]; exact hl), State.rackLoss, stored]
  rcases hst with hst | hst <;> rw [hst]

/-- A word that completes a loss in READY or PROVE (R10, R11). -/
theorem State.takeRack_drops {left : RoomState} (hleft : left = .ready ∨ left = .prove) (hst : (s.room r).path.state = left)
    (hl : (s.room r).path.completesLoss w.present = true) :
    s.takeRack r w = (s.modPath r (Path.storeWord · w)).transit r [.rackGone left] RoomRec.toDebouncing := by
  have loss : s.takeRack r w = (s.storeRack r w).rackLoss r := by
    rcases hleft with rfl | rfl
    · rw [State.takeRack_observed (.inl hst), State.observe_loss (by rw [State.storeRack_room]; exact hl)]
    · exact State.takeRack_prove_loss hst hl
  have outside : (s.room r).path.state ≠ .parked := by
    rcases hleft with rfl | rfl <;> rw [hst] <;> decide
  rw [loss, State.storeRack_of_not_parked outside, State.rackLoss, State.room_modPath_self]
  have stored : ((s.room r).path.storeWord w).state = left := hst
  dsimp only
  rw [stored]
  rcases hleft with rfl | rfl <;> rfl

theorem State.takeRack_found (hst : (s.room r).path.state = .listen) (hph : (s.room r).path.phase = .debouncing)
    (hh : (s.room r).path.debounceHeld = false) (hc : 11999 ≤ (s.room r).path.seqCount) (hw : w.present = true) :
    s.takeRack r w = (s.modPath r (Path.storeWord · w)).transit r [.rackFound] (RoomRec.toPlain .ready) := by
  rw [State.takeRack_listen hst, if_pos hph, hw,
    State.debounce_completes (by rw [State.storeRack_room]; exact hh) (by rw [State.storeRack_room]; exact hc),
    State.storeRack_of_not_parked (by rw [hst]; decide)]
  rfl

/-- What a path that only its word has touched, outside LIVE, becomes at a change of state with one notice of its own (R7). -/
theorem State.transit_stored {own : NoticeBody} {f : RoomRec → RoomRec} {new : RoomRec} {left : RoomState}
    (hst : (s.room r).path.state = left) (hlive : left ≠ .live)
    (hnew : f { s.room r with path := (s.room r).path.storeWord w } = new) (hne : new.path.state ≠ left)
    (hruns : new.path.state.runs = false) (hq : s.mgmt.notices.length ≤ 30) :
    let t := (s.modPath r (Path.storeWord · w)).transit r [own] f
    s.onlyRoom t r ∧ t.alarms = s.alarms ∧ t.room r = new ∧ t.mgmt = { s.mgmt with
      notices := s.mgmt.notices ++ [⟨some (r, (t.room r).snapshot), .roomState left, s.mgmt.dropCount⟩,
        ⟨some (r, (t.room r).snapshot), own, 0⟩]
      dropCount := 0 } := by
  have stored : (s.modPath r (Path.storeWord · w)).room r = { s.room r with path := (s.room r).path.storeWord w } :=
    State.room_modPath_self s r _
  have state : ((s.modPath r (Path.storeWord · w)).room r).path.state = left := by
    rw [stored]
    exact hst
  obtain ⟨only, alarms, mgmt, room⟩ := State.transit_plain (s := s.modPath r (Path.storeWord · w)) (r := r) (own := [own]) (f := f)
    (new := new) (by rw [state]; exact hlive) (by rw [stored, hnew]; exact fun k => hne (k.trans hst))
    (by rw [stored, hnew]; exact RoomRec.markEntry_of_still (.inl hruns))
  refine ⟨State.onlyRoom_trans (s.onlyRoom_modRoom r _) only, alarms, room, ?_⟩
  rw [mgmt, state]
  exact Mgmt.raise_raise hq _ _ _

end

/-- Settles O16: the word is stored, with its wake, and then the room halts. -/
theorem rackLossHalts : Obligations.RackLossHalts := by
  intro s r w ho hst hw ha
  have hl : (s.room r).path.completesLoss (RackWord.ofFrame w).present = true := hw ▸ Path.completesLoss_absent ha
  have observed : (s.room r).path.state.observed = true := by rcases hst with h | h <;> rw [h] <;> rfl
  have taken := State.takeRack_halts hst hl
  have stored := State.storeRack_room s r (RackWord.ofFrame w)
  have room : ((s.storeRack r (RackWord.ofFrame w)).enterHalted r).room r =
      { (s.room r).leavingLive with path := (s.room r).path.storeWord (RackWord.ofFrame w) }.toHalted := by
    have leaves := RoomRec.leavingLive_withPath (s.room r) (p := (s.room r).path.storeWord (RackWord.ofFrame w)) rfl
    rw [State.room_enterHalted, if_pos rfl, RoomRec.afterTransit_toHalted, stored]
    exact congrArg RoomRec.toHalted leaves
  refine ⟨(s.storeRack r (RackWord.ofFrame w)).enterHalted r, by rw [exec_rackWord ho, taken],
    fun ht => by rw [exec_rackLoss ho hw observed ha ht, taken], State.onlyRoom_trans (State.storeRack_onlyRoom ..)
      ⟨State.onlyRooms_enterHalted _ r, fun q hq => by rw [State.room_enterHalted, if_neg hq]⟩, ?_, ?_, ?_⟩
  · rw [room]
    rfl
  · have notices := RoomRec.transitNotices_toHalted (rm := (s.storeRack r (RackWord.ofFrame w)).room r) (by
      rw [stored]
      rcases hst with h | h <;> simp only [h] <;> decide)
    have mgmt : ((s.storeRack r (RackWord.ofFrame w)).enterHalted r).mgmt = _ :=
      State.transit_mgmt (s.storeRack r (RackWord.ofFrame w)) r [] RoomRec.toHalted
    rw [mgmt, notices, RoomRec.afterTransit_toHalted, State.storeRack_mgmt, stored]
    rw [State.room_enterHalted, if_pos rfl, RoomRec.afterTransit_toHalted, stored]
  · rw [State.enterHalted_alarms, State.storeRack_alarms]
    rfl

/-- Settles O17: the word is stored, and then the room leaves for LISTEN. -/
theorem rackLossReturnsToListen : Obligations.RackLossReturnsToListen := by
  intro s r w left ho hleft hst hw ha hq
  have hl : (s.room r).path.completesLoss (RackWord.ofFrame w).present = true := hw ▸ Path.completesLoss_absent ha
  have observed : (s.room r).path.state.observed = true := by rcases hleft with rfl | rfl <;> rw [hst] <;> rfl
  have taken := State.takeRack_drops hleft hst hl
  have effect := State.transit_stored (w := RackWord.ofFrame w) (own := .rackGone left) (f := RoomRec.toDebouncing) hst
    (by rcases hleft with rfl | rfl <;> decide) rfl (by rcases hleft with rfl | rfl <;> exact nofun) rfl hq
  exact ⟨_, by rw [exec_rackWord ho, taken], fun ht => by rw [exec_rackLoss ho hw observed ha ht, taken], effect⟩

/-- Settles O18: the word is stored, and then the room enters READY. -/
theorem debounceCompletes : Obligations.DebounceCompletes := by
  intro s r w ho hst hph hh hc hw hq
  have taken := State.takeRack_found (w := RackWord.ofWord w) hst hph hh hc hw
  have effect := State.transit_stored (w := RackWord.ofWord w) (own := .rackFound) (f := RoomRec.toPlain .ready) hst
    (by decide) rfl nofun rfl hq
  exact ⟨_, by rw [exec_rackWord ho]; exact congrArg _ taken,
    fun ht => by rw [exec_debounceComplete ho hst hph hh hc hw ht, taken], effect⟩

end Sys2Proof.Machine
end

section
/-! The ends of pilot attempts: O19 (R18, R19). -/

namespace Sys2Proof.Machine

/-! ### The state of a change that touches rooms, alarms and notices alone -/

section
variable {s t u : State} {r : Room}

theorem State.eq_of_onlyRooms (ht : s.onlyRooms t) (hu : s.onlyRooms u) (rooms : t.rooms = u.rooms) (alarms : t.alarms = u.alarms)
    (mgmt : t.mgmt = u.mgmt) : t = u := by
  rw [ht, hu, rooms, alarms, mgmt]

/-- The part with a sample period open, or none. -/
def State.setOpen (s : State) (b : Bool) : State := { s with periodOpen := b }

theorem State.setOpen_self {b : Bool} (h : s.periodOpen = b) : s.setOpen b = s := by
  subst h
  rfl

theorem State.onlyRooms_setOpen (h : s.onlyRooms t) (b : Bool) : (s.setOpen b).onlyRooms (t.setOpen b) := by
  show t.setOpen b = _
  rw [h]
  rfl

/-- A change of a room's state does not look at whether a sample period is open. -/
theorem State.transit_setOpen (s : State) (r : Room) (own : List NoticeBody) (f : RoomRec → RoomRec) (b : Bool) :
    (s.setOpen b).transit r own f = (s.transit r own f).setOpen b := by
  obtain ⟨_, alarms', rooms'⟩ := (s.setOpen b).transit_spec r own f
  obtain ⟨only, alarms, rooms⟩ := s.transit_spec r own f
  refine State.eq_of_onlyRooms (State.onlyRooms_transit _ r own f) (State.onlyRooms_setOpen only b) ?_ ?_ ?_
  · rw [rooms']
    exact rooms.symm
  · rw [alarms']
    exact alarms.symm
  · rw [State.transit_mgmt]
    exact (State.transit_mgmt s r own f).symm

/-! ### The record of a channel's result (R19) -/

/-- The proof record with the result of one channel. -/
def Path.withResult (p : Path) (k : Chan) (res : ProofResult) : Vector ProofEntry 16 :=
  p.record.set k.val { p.record[k] with result := res } k.isLt

theorem Path.lowestFitted_congr {p q : Path} (h : p.fitted = q.fitted) (g : Chan → Bool) : p.lowestFitted g = q.lowestFitted g := by
  rw [Path.lowestFitted, Path.lowestFitted]
  unfold Path.isFitted
  rw [h]

/-- No fitted channel stands above `k` (R19). -/
theorem Path.lowestFitted_above_none {p : Path} {k : Chan} (h : ∀ j : Chan, k < j → p.isFitted j = false) :
    p.lowestFitted (fun j => decide (k < j)) = none := by
  refine Path.lowestFitted_none fun j => ?_
  by_cases hj : k < j
  · rw [h j hj, Bool.false_and]
  · rw [decide_eq_false hj, Bool.and_false]

/-- The next higher fitted channel (R19). -/
theorem Path.lowestFitted_above_some {p : Path} {k j : Chan} (hk : k < j) (hj : p.isFitted j = true)
    (h : ∀ i : Chan, k < i → i < j → p.isFitted i = false) : p.lowestFitted (fun j => decide (k < j)) = some j := by
  refine Path.lowestFitted_some (by rw [hj, decide_eq_true hk]; rfl) fun i hi => ?_
  by_cases hki : k < i
  · rw [h i hki hi, Bool.false_and]
  · rw [decide_eq_false hki, Bool.and_false]

theorem Path.isFitted_of_lowestFitted {p : Path} {g : Chan → Bool} {j : Chan} (h : p.lowestFitted g = some j) :
    p.isFitted j = true ∧ g j = true :=
  Bool.and_eq_true_iff.1 (List.find?_some (p := fun k => p.isFitted k && g k) h)

theorem Path.allPassed_iff (p : Path) : p.allPassed = true ↔ ∀ k : Chan, p.isFitted k = true → p.record[k].result = .passed := by
  simp only [Path.allPassed, List.all_eq_true, List.mem_finRange, true_implies, Bool.or_eq_true, Bool.not_eq_true',
    decide_eq_true_eq, ← Bool.not_eq_true]
  exact forall_congr' fun k => (imp_iff_not_or).symm

/-! ### The end of a proof and the channel that follows (R19) -/

theorem State.channelDone_ends {k : Chan} {res : ProofResult}
    (h : (res = .failed ∧ (s.room r).path.policy = .stopAtFirst) ∨
      (s.room r).path.lowestFitted (fun j => decide (k < j)) = none) :
    s.channelDone r k res = s.endProof r ((s.room r).path.withResult k res) := by
  unfold State.channelDone
  dsimp only
  by_cases stop : res = .failed ∧ (s.room r).path.policy = .stopAtFirst
  · exact if_pos stop
  · refine (if_neg stop).trans ?_
    split
    next j e => cases (h.resolve_left stop).symm.trans e
    next => rfl

theorem State.channelDone_follows {k j : Chan} {res : ProofResult}
    (h : ¬(res = .failed ∧ (s.room r).path.policy = .stopAtFirst))
    (hj : (s.room r).path.lowestFitted (fun j => decide (k < j)) = some j) :
    s.channelDone r k res =
      s.modPath r fun p => { p with record := (s.room r).path.withResult k res, nextAttempt := some ⟨j, 1⟩ } := by
  unfold State.channelDone
  dsimp only
  refine (if_neg h).trans ?_
  split
  next i e =>
    obtain rfl := Option.some.inj (hj.symm.trans e)
    exact State.modRoom_congr s r _ _ rfl
  next e => cases hj.symm.trans e

/-- A room whose proof has ended with this record (R19). -/
def Path.proofEnded (p : Path) (rec' : Vector ProofEntry 16) : Path :=
  { p.noSequence with state := .ready, phase := .none, record := rec', proven := ({ p with record := rec' } : Path).allPassed }

theorem Path.proofEnded_of {p : Path} {rec' : Vector ProofEntry 16} {b : Bool} (h : (p.proofEnded rec').proven = b) :
    p.proofEnded rec' = { p.noSequence with state := .ready, phase := .none, record := rec', proven := b } := by
  subst h
  rfl

theorem State.endProof_effect (h : (s.room r).path.state = .prove) (rec' : Vector ProofEntry 16) :
    s.onlyRoom (s.endProof r rec') r ∧ (s.endProof r rec').alarms = s.alarms ∧
    (s.endProof r rec').mgmt = s.mgmt.told r ((s.endProof r rec').room r)
      [.roomState .prove, .proofDone ((s.room r).path.proofEnded rec').proven rec'] ∧
    (s.endProof r rec').room r = { s.room r with path := (s.room r).path.proofEnded rec' } := by
  have effect := State.transit_plain (s := s) (r := r) (own := [.proofDone ((s.room r).path.proofEnded rec').proven rec'])
    (f := fun rm => { rm.toPlain .ready with path := { (rm.toPlain .ready).path with
      record := rec', proven := ((s.room r).path.proofEnded rec').proven } })
    (by rw [h]; decide) (by rw [h]; exact nofun) (RoomRec.markEntry_of_still (.inl rfl))
  rw [h] at effect
  exact effect

/-! ### The failure of an attempt (R18) -/

theorem State.attemptTimeout_over {pos : ProofPos} (h : (s.room r).path.attemptOver = some pos) :
    s.attemptTimeout r = s.failAttempt r pos := by
  rw [State.attemptTimeout, h]

theorem Path.attemptRunning_of_position {p : Path} {pos : ProofPos} (hst : p.state = .prove) (hn : p.nextAttempt = none)
    (hp : p.proofPos = some pos) (hc : 0 < p.seqCount) : p.attemptRunning = some pos :=
  (if_pos ⟨hst, hn, hc⟩).trans hp

theorem Path.attemptOver_of_position {p : Path} {pos : ProofPos} (hst : p.state = .prove) (hn : p.nextAttempt = none)
    (hp : p.proofPos = some pos) (hc : 1920 ≤ p.seqCount) : p.attemptOver = some pos :=
  (if_pos hc).trans (Path.attemptRunning_of_position hst hn hp (Nat.lt_of_lt_of_le (by decide) hc))

theorem State.failAttempt_retries {k : Chan} {n : Nat} (h : n < 3) :
    s.failAttempt r ⟨k, n⟩ = s.modPath r fun p => { p with nextAttempt := some ⟨k, n + 1⟩ } :=
  if_pos h

theorem State.failAttempt_third {k : Chan} {n : Nat} (h : 3 ≤ n) : s.failAttempt r ⟨k, n⟩ = s.channelDone r k .failed :=
  if_neg (Nat.not_lt.2 h)

theorem Path.proofEnded_failed {p : Path} {k : Chan} (h : p.isFitted k = true) : (p.proofEnded (p.withResult k .failed)).proven = false := by
  refine Bool.eq_false_iff.2 fun passed => ?_
  have result := (Path.allPassed_iff _).1 passed k h
  rw [Path.withResult, Fin.getElem_fin, Vector.getElem_set_self] at result
  cases result

theorem State.channelDone_setOpen (s : State) (r : Room) (k : Chan) (res : ProofResult) (b : Bool) :
    (s.setOpen b).channelDone r k res = (s.channelDone r k res).setOpen b := by
  have ends (rec' : Vector ProofEntry 16) : (s.setOpen b).endProof r rec' = (s.endProof r rec').setOpen b := by
    unfold State.endProof
    exact State.transit_setOpen ..
  by_cases stop : res = .failed ∧ (s.room r).path.policy = .stopAtFirst
  · rw [State.channelDone_ends (s := s.setOpen b) (.inl stop), State.channelDone_ends (.inl stop)]
    exact ends _
  cases hj : (s.room r).path.lowestFitted (fun j => decide (k < j)) with
  | none =>
    rw [State.channelDone_ends (s := s.setOpen b) (.inr hj), State.channelDone_ends (.inr hj)]
    exact ends _
  | some j =>
    rw [State.channelDone_follows (s := s.setOpen b) stop hj, State.channelDone_follows stop hj]
    rfl

/-- Whether a sample period is open does not matter to the failure of an attempt itself. -/
theorem State.attemptTimeout_setOpen {pos : ProofPos} (h : (s.room r).path.attemptOver = some pos) (b : Bool) :
    (s.setOpen b).attemptTimeout r = (s.attemptTimeout r).setOpen b := by
  rw [State.attemptTimeout_over (s := s.setOpen b) h, State.attemptTimeout_over h]
  by_cases hn : pos.attempt < 3
  · rw [State.failAttempt_retries (s := s.setOpen b) hn, State.failAttempt_retries hn]
    rfl
  · rw [State.failAttempt_third (s := s.setOpen b) (Nat.not_lt.1 hn), State.failAttempt_third (Nat.not_lt.1 hn)]
    exact State.channelDone_setOpen ..

theorem exec_pilotAttemptTimeout_closed (h : s.periodOpen = false) : exec (.pilotAttemptTimeout r) s = .next (s.attemptTimeout r) :=
  congrArg Host.Outcome.next (if_neg (Bool.eq_false_iff.1 h))

theorem exec_pilotAttemptTimeout_open (h : s.periodOpen = true) : exec (.pilotAttemptTimeout r) s = .next s :=
  congrArg Host.Outcome.next (if_pos h)

end

theorem Path.proofEnded_proven (p : Path) (rec' : Vector ProofEntry 16) :
    (p.proofEnded rec').proven = true ↔ ∀ j : Chan, p.isFitted j = true → rec'[j].result = .passed :=
  Path.allPassed_iff _

/-- The path with a word of its attempt judged: stored, counted, and its pilot kept (R8, R9, R18). -/
def Path.judge (p : Path) (w : RackWord) (k : Chan) : Path := ((p.storeWord w).countAbsence w.present).sendPilot k

section
variable {s : State} {r : Room} {w : RackWord} {k : Chan} {n : Nat}

/-- A return in limits: the channel is PASSED, and the proof ends or the next higher fitted channel follows (R18, R19). -/
theorem State.takeRack_passes (hst : (s.room r).path.state = .prove)
    (hn : (s.room r).path.nextAttempt = none) (hpos : (s.room r).path.proofPos = some ⟨k, n⟩) (hc : 0 < (s.room r).path.seqCount)
    (hl : (s.room r).path.completesLoss w.present = false) (hp : (s.room r).path.returnPasses w = true) :
    s.takeRack r w = (s.modPath r (Path.judge · w k)).channelDone r k .passed := by
  rw [State.takeRack_judged hst hl, State.judgeReturn_passes (pos := ⟨k, n⟩) (by
      rw [State.room_modPath_self]
      exact Path.attemptRunning_of_position hst hn hpos hc) (by rw [State.room_modPath_self]; exact hp), State.modPath_modPath]
  rfl

/-- The last fitted channel is PASSED: the proof ends (R19). -/
theorem State.passed_last (hst : (s.room r).path.state = .prove)
    (hj : (s.room r).path.lowestFitted (fun j => decide (k < j)) = none) :
    let t := (s.modPath r (Path.judge · w k)).channelDone r k .passed
    s.onlyRoom t r ∧ t.alarms = s.alarms ∧ ∃ b, (b = true ↔ ∀ j : Chan, (s.room r).path.isFitted j = true →
        ((s.room r).path.withResult k .passed)[j].result = .passed) ∧
      t.mgmt = s.mgmt.told r (t.room r) [.roomState .prove, .proofDone b ((s.room r).path.withResult k .passed)] ∧
      t.room r = { s.room r with path := { ((s.room r).path.judge w k).noSequence with
        state := .ready, phase := .none, record := (s.room r).path.withResult k .passed, proven := b } } := by
  have room := State.room_modPath_self s r (Path.judge · w k)
  have judged : ((s.modPath r (Path.judge · w k)).room r).path = (s.room r).path.judge w k := by rw [room]
  have low : ((s.modPath r (Path.judge · w k)).room r).path.lowestFitted (fun j => decide (k < j)) = none := by
    rw [judged]
    exact hj
  have record : ((s.modPath r (Path.judge · w k)).room r).path.withResult k .passed = (s.room r).path.withResult k .passed := by
    rw [judged]
    rfl
  obtain ⟨only, alarms, mgmt, room'⟩ := State.endProof_effect (s := s.modPath r (Path.judge · w k)) (r := r)
    (by rw [judged]; exact hst) ((s.room r).path.withResult k .passed)
  intro t
  have ends : t = (s.modPath r (Path.judge · w k)).endProof r ((s.room r).path.withResult k .passed) :=
    record ▸ State.channelDone_ends (.inr low)
  rw [judged] at mgmt room'
  rw [room, Path.proofEnded_of rfl] at room'
  rw [ends]
  exact ⟨State.onlyRoom_trans (s.onlyRoom_modRoom r _) only, alarms, _,
    Path.proofEnded_proven ((s.room r).path.judge w k) _, mgmt, room'⟩

/-- The next higher fitted channel follows a PASSED one (R19). -/
theorem State.passed_next {j : Chan} (hj : (s.room r).path.lowestFitted (fun j => decide (k < j)) = some j) :
    (s.modPath r (Path.judge · w k)).channelDone r k .passed =
      s.modPath r fun p => { p.judge w k with record := (s.room r).path.withResult k .passed, nextAttempt := some ⟨j, 1⟩ } := by
  have judged : ((s.modPath r (Path.judge · w k)).room r).path = (s.room r).path.judge w k := by rw [State.room_modPath_self]
  rw [State.channelDone_follows (fun k => by cases k.1) (by rw [judged]; exact hj), State.modPath_modPath, judged]
  rfl

end

/-- Settles O19: the failure by the attempt and the policy, the pass by the channels above. -/
theorem pilotAttemptEnds : Obligations.PilotAttemptEnds := by
  refine ⟨fun s r k n hst hn hpos hc ho => ⟨fun h3 => ?_, fun h3 => ⟨fun hfit hend => ?_, fun hpol j hkj hj hi => ?_⟩⟩,
    fun s r ho => exec_pilotAttemptTimeout_open ho, fun s r w k n ho hst hn hpos hc hl hno => ?_,
    fun s r w k n ho hst hn hpos hc hl hv hmin hmax => ?_⟩
  · rw [exec_pilotAttemptTimeout_closed ho, State.attemptTimeout_over (Path.attemptOver_of_position hst hn hpos hc),
      State.failAttempt_retries h3]
  · have ends : s.attemptTimeout r = s.endProof r ((s.room r).path.withResult k .failed) := by
      rw [State.attemptTimeout_over (Path.attemptOver_of_position hst hn hpos hc), State.failAttempt_third h3]
      exact State.channelDone_ends (hend.imp (fun hpol => ⟨rfl, hpol⟩) Path.lowestFitted_above_none)
    obtain ⟨only, alarms, mgmt, room⟩ := State.endProof_effect hst ((s.room r).path.withResult k .failed)
    rw [Path.proofEnded_failed hfit] at mgmt
    refine ⟨_, by rw [exec_pilotAttemptTimeout_closed ho, ends], only, alarms, ?_, mgmt⟩
    rw [room]
    rw [Path.proofEnded_of (Path.proofEnded_failed hfit)]
    rfl
  · have go : ¬(ProofResult.failed = .failed ∧ (s.room r).path.policy = .stopAtFirst) := fun stop => by
      rw [hpol] at stop
      cases stop.2
    rw [exec_pilotAttemptTimeout_closed ho, State.attemptTimeout_over (Path.attemptOver_of_position hst hn hpos hc),
      State.failAttempt_third h3, State.channelDone_follows go (Path.lowestFitted_above_some hkj hj hi)]
    rfl
  · intro told
    have judged : s.takeRack r (RackWord.ofWord w) = told.attemptTimeout r := by
      have running := Path.attemptRunning_of_position hst hn hpos (Nat.lt_of_lt_of_le (by decide) hc)
      rw [State.takeRack_judged hst (Path.completesLoss_present hl),
        State.judgeReturn_fails (pos := ⟨k, n⟩) (by rw [State.room_modPath_self]; exact running)
          (by rw [State.room_modPath_self]; exact Path.returnPasses_eq_false hno), State.modPath_modPath]
      rfl
    have room : told.room r = { s.room r with path := { (s.room r).path with
        lastRack := RackWord.ofWord w, rackTaken := true, pilotSent := some (k, (s.room r).path.seqCount)
        rackAbsence := if (RackWord.ofWord w).present then 0 else (s.room r).path.rackAbsence + 1 } } := State.room_modPath_self s r _
    have timedOut : (told.room r).path.attemptOver = some ⟨k, n⟩ := by
      rw [room]
      exact Path.attemptOver_of_position hst hn hpos hc
    have reopened : (((told.setOpen false).attemptTimeout r).setOpen true) = told.attemptTimeout r := by
      rw [← State.attemptTimeout_setOpen (s := told.setOpen false) timedOut]
      show (told.setOpen true).attemptTimeout r = _
      rw [State.setOpen_self (s := told) ho]
    exact ⟨(told.setOpen false).attemptTimeout r, exec_pilotAttemptTimeout_closed rfl, by
      rw [exec_rackWord ho]
      exact congrArg Host.Outcome.next (judged.trans reopened.symm)⟩
  · have passes : (s.room r).path.returnPasses (RackWord.ofWord w) = true := by
      rw [Path.returnPasses, hv, decide_eq_true ⟨hmin, hmax⟩]
      rfl
    have course : exec (.rackWord r (some w)) s =
        .next ((s.modPath r (Path.judge · (RackWord.ofWord w) k)).channelDone r k .passed) := (exec_rackWord ho (some w)).trans
      (congrArg Host.Outcome.next (State.takeRack_passes hst hn hpos hc (Path.completesLoss_present hl) passes))
    cases hj : (s.room r).path.lowestFitted (fun j => decide (k < j)) with
    | none =>
      obtain ⟨only, alarms, b, proven, mgmt, room⟩ := State.passed_last (w := RackWord.ofWord w) hst hj
      refine ⟨_, course, only, alarms, fun _ => ⟨?_, ?_, ?_⟩, fun j hkj hfit hi => ?_⟩
      · rw [room]
        simp only [Path.judge, Path.storeWord, Path.countAbsence, Path.sendPilot, Path.noSequence, Path.withResult]
      · rw [room]
        exact proven
      · rw [mgmt, room]
        simp only [Path.withResult]
      · cases hj.symm.trans (Path.lowestFitted_above_some hkj hfit hi)
    | some j =>
      rw [State.passed_next hj] at course
      refine ⟨_, course, s.onlyRoom_modRoom r _, rfl, fun none => ?_, fun i hki hfit hi => ⟨?_, rfl⟩⟩
      · cases hj.symm.trans (Path.lowestFitted_above_none none)
      · obtain rfl := Option.some.inj (hj.symm.trans (Path.lowestFitted_above_some hki hfit hi))
        rw [State.room_modPath_self]
        simp only [Path.judge, Path.storeWord, Path.countAbsence, Path.sendPilot, Path.withResult]

end Sys2Proof.Machine
end

section
/-! Counts that run out, and the opening of a sample period: O20 (R15, R18, R25, R61, R65 to R67, R117, R167, R206, R208, R210). -/

namespace Sys2Proof.Machine

/-! ### When an event is due (R15, R25, R61, R67, R206, R208) -/

section
variable {s : State} {r : Room}

theorem State.settlingDue_iff : s.settlingDue r = true ↔ (s.room r).path.phase = .settling ∧ 4800 ≤ (s.room r).path.seqCount :=
  decide_eq_true_iff

theorem Path.rampDue_iff (p : Path) : p.rampDue = true ↔ ∃ q, p.ramp = some q ∧ q.len ≤ q.n := by
  unfold Path.rampDue
  cases p.ramp <;> simp

theorem Gain.fadeDue_iff (gn : Gain) : gn.fadeDue = true ↔ ∃ f, gn.fade = some f ∧ f.len ≤ f.n := by
  unfold Gain.fadeDue
  cases gn.fade <;> simp

theorem Dip.bottomDue_iff (dp : Dip) : dp.bottomDue = true ↔ dp.stage = .descent ∧ 240 ≤ dp.step := decide_eq_true_iff

theorem Dip.ascentDue_iff (dp : Dip) : dp.ascentDue = true ↔ dp.stage = .ascent ∧ 240 ≤ dp.step := decide_eq_true_iff

theorem State.storeDue_iff : s.storeDue = true ↔ ∃ n, s.store = .initialising n ∧ 576 ≤ n := by
  unfold State.storeDue
  cases s.store with
  | initialising n => exact ⟨fun k => ⟨n, rfl, of_decide_eq_true k⟩, fun ⟨_, e, k⟩ => by cases e; exact decide_eq_true k⟩
  | ready => simp

theorem State.restartDue_iff : s.restartDue = true ↔ ∃ n, s.restart = some n ∧ 96 ≤ n := by
  unfold State.restartDue
  cases s.restart with
  | some n => exact ⟨fun k => ⟨n, rfl, of_decide_eq_true k⟩, fun ⟨_, e, k⟩ => by cases e; exact decide_eq_true k⟩
  | none => simp

/-- A row takes its event where it is due in the period in progress. -/
theorem State.takeDue_due {due : State → Bool} {act : State → State} (ho : s.periodOpen = true) (h : due s = true) :
    s.takeDue due act = act s := by
  rw [State.takeDue_of_open ho, State.force, if_pos h]

theorem Dip.filled_iff (dp : Dip) : dp.filled = true ↔ dp.fmtSlot ≠ none ∨ dp.srcSlot ≠ none ∨ dp.bankSlot ≠ none := by
  simp only [Dip.filled, Bool.or_eq_true, Option.isSome_iff_ne_none, or_assoc]

theorem Dip.endAscent_eq (dp : Dip) : dp.endAscent = { dp with
    stage := if dp.fmtSlot ≠ none ∨ dp.srcSlot ≠ none ∨ dp.bankSlot ≠ none then .descent else .idle
    step := 0, d := 65536, followOn := false } := by
  simp only [Dip.endAscent, Dip.filled_iff]
  rfl

/-! ### What is overdue as a period opens (R18, R117, R210) -/

/-- What holds of a part and is kept by each room's turn holds after all of them. -/
theorem forRooms_keeps {P : State → Prop} {order : List Room} {f : Room → State → State} (hs : P s) (hf : ∀ r s, P s → P (f r s)) :
    P (forRooms order f s) :=
  List.foldlRecOn (motive := P) _ _ hs fun u hu r _ => hf r u hu

theorem visit_nil : visit [] = List.finRange 12 := by decide

theorem State.periodOpen_transit (s : State) (r : Room) (own : List NoticeBody) (f : RoomRec → RoomRec) :
    (s.transit r own f).periodOpen = s.periodOpen := State.onlyRooms_periodOpen (State.onlyRooms_transit s r own f)

theorem State.periodOpen_supplyRoom (r : Room) (s : State) : (State.supplyRoom r s).periodOpen = s.periodOpen := by
  unfold State.supplyRoom
  split
  · rfl
  · exact State.periodOpen_transit ..
  all_goals rfl

theorem State.periodOpen_dueSupply (h : s.periodOpen = false) : s.dueSupply.periodOpen = false := by
  unfold State.dueSupply State.supplyActs
  split
  · dsimp only
    rw [if_neg Bool.false_ne_true, State.notifyPart_periodOpen]
    refine forRooms_keeps (P := fun u => u.periodOpen = false) ?_ fun r u hu => (State.periodOpen_supplyRoom r u).trans hu
    rw [State.mapRooms_periodOpen]
    exact h
  · exact h

theorem State.periodOpen_judge (r : Room) (x : CondId) (truth : Bool) (hold p n : Nat) (acc : State × List CondId) :
    (State.judge r x truth hold p n acc).1.periodOpen = acc.1.periodOpen := by
  unfold State.judge
  dsimp only
  split
  · exact State.onlyRooms_periodOpen (State.onlyRooms_raiseCond ..)
  · split
    · exact State.onlyRooms_periodOpen (State.onlyRooms_clearCond ..)
    · rfl

theorem State.periodOpen_judgeLevel (r : Room) (acc : State × List CondId) (x : Chan × LevelKind) :
    (State.judgeLevel r acc x).1.periodOpen = acc.1.periodOpen := by
  unfold State.judgeLevel
  dsimp only
  split
  · rfl
  · exact State.periodOpen_judge ..

theorem State.periodOpen_evaluate (r : Room) (s : State) : (State.evaluate r s).periodOpen = s.periodOpen := by
  have levels : (levelConds.foldl (State.judgeLevel r) (s.capture r, [])).1.periodOpen = s.periodOpen :=
    List.foldlRecOn (motive := fun acc : State × List CondId => acc.1.periodOpen = s.periodOpen) _ _ rfl
      fun acc hacc x _ => (State.periodOpen_judgeLevel r acc x).trans hacc
  unfold State.evaluate
  dsimp only
  split
  · split
    · rw [State.modRoom_periodOpen, State.periodOpen_judge]
      exact levels
    · rw [State.modRoom_periodOpen, State.periodOpen_judge]
      exact levels
  · split
    · exact State.periodOpen_judge ..
    · exact State.periodOpen_judge ..

theorem State.periodOpen_blockEnd (s : State) (order : List Room) : (s.blockEnd order).periodOpen = s.periodOpen := by
  delta State.blockEnd
  exact forRooms_keeps (P := fun u => u.periodOpen = s.periodOpen) rfl fun r u hu => (State.periodOpen_evaluate r u).trans hu

theorem State.attemptTimeout_none (h : (s.room r).path.attemptOver = none) : s.attemptTimeout r = s := by
  rw [State.attemptTimeout, h]

theorem State.periodOpen_attemptTimeout (h : s.periodOpen = false) : (s.attemptTimeout r).periodOpen = false := by
  cases hp : (s.room r).path.attemptOver with
  | none => rwa [State.attemptTimeout_none hp]
  | some pos =>
    have same := State.attemptTimeout_setOpen hp false
    rw [State.setOpen_self h] at same
    rw [same]
    rfl

/-- The timeouts of the rows one after another, while no period is open. -/
theorem State.after_timeouts (l : List Room) {s : State} (h : s.periodOpen = false) :
    s.after (l.map .pilotAttemptTimeout) = l.foldl (fun s r => s.attemptTimeout r) s := by
  induction l generalizing s with
  | nil => rfl
  | cons r l ih =>
    rw [List.map_cons, State.after_cons _ (exec_pilotAttemptTimeout_closed h), ih (State.periodOpen_attemptTimeout h), List.foldl_cons]

/-- METER_BLOCK_END between two periods takes the block end that is due (R117). -/
theorem exec_meterBlockEnd_closed (h : s.periodOpen = false) (order : List Room) :
    exec (.meterBlockEnd order) s = .next (if s.blockEndDue then s.blockEnd order else s) := by
  have no : s.blockReady = false := by
    rw [State.blockReady, h]
    rfl
  show Host.Outcome.next (s.takeBlockEnd order) = _
  rw [State.takeBlockEnd, no]
  rfl

theorem State.overdue_eq_after (h : s.periodOpen = false) :
    s.overdue = s.dueSupply.after (.meterBlockEnd [] :: (List.finRange 12).map .pilotAttemptTimeout) := by
  have supplied := State.periodOpen_dueSupply h
  have blocked : (if s.dueSupply.blockEndDue then s.dueSupply.blockEnd [] else s.dueSupply).periodOpen = false := by
    split
    · exact (State.periodOpen_blockEnd ..).trans supplied
    · exact supplied
  rw [State.after_cons _ (exec_meterBlockEnd_closed supplied []), State.after_timeouts _ blocked, State.overdue, forRooms, visit_nil]

theorem State.overdue_nothing (hs : s.supplyDue = false) (hb : s.blockEndDue = false)
    (ha : ∀ r : Room, (s.room r).path.attemptOver = none) : s.overdue = s := by
  have supplied : s.dueSupply = s := if_neg (Bool.eq_false_iff.1 hs)
  rw [State.overdue, supplied, hb]
  exact forRooms_keeps (P := fun u => u = s) rfl fun r u hu => by rw [hu, State.attemptTimeout_none (ha r)]

end

/-! ### The step of every count (R15, R18, R25, R61, R65, R167, R172) -/

section
variable {p : Path}

theorem Path.counted_attempt {pos : ProofPos} (h : p.nextAttempt = some pos) :
    p.counted = { p.beginAttempt pos with seqCount := 1 } := by
  rw [Path.counted, h]

theorem Path.counted_none (h : p.nextAttempt = none) : p.counted = { p with
    seqCount := if p.phase = .settling then min 4800 (p.seqCount + 1)
      else if p.phase = .proving then min 1920 (p.seqCount + 1) else p.seqCount } := by
  unfold Path.counted
  split
  next pos e => cases h.symm.trans e
  split
  next e => rw [if_pos e]; rfl
  next e => rw [if_neg (by rw [e]; decide), if_pos e]; rfl
  next h1 h2 => rw [if_neg h1, if_neg h2]

/-- The counts touch the sequence alone, and leave no next attempt (R18). -/
theorem Path.counted_frame (p : Path) : p.counted = { p with
    seqCount := p.counted.seqCount, nextAttempt := none, proofPos := p.counted.proofPos, record := p.counted.record } := by
  cases h : p.nextAttempt with
  | some pos => rw [Path.counted_attempt h]; rfl
  | none =>
    rw [Path.counted_none h, ← h]

theorem Path.tick_of_still (h : p.ramp = none) :
    p.tick = { p.counted with debounceHeld := false, rackTaken := false, pilotSent := none } := by
  have still : p.counted.ramp = none := by
    rw [Path.counted_frame]
    exact h
  rw [Path.tick_eq, still]
  rfl

theorem Path.tick_of_ramp {q : Ramp} (h : p.ramp = some q) : p.tick = { p.counted with
    p := q.advance.value, ramp := some q.advance, debounceHeld := false, rackTaken := false, pilotSent := none } := by
  have moves : p.counted.ramp = some q := by
    rw [Path.counted_frame]
    exact h
  rw [Path.tick_eq, moves]
  rfl

/-- A sample period's step of the path touches its sequence and its ramp (R15, R18, R25). -/
theorem Path.tick_frame (p : Path) : p.tick = { p with
    seqCount := p.counted.seqCount, nextAttempt := none, proofPos := p.counted.proofPos, record := p.counted.record
    p := p.tick.p, ramp := p.tick.ramp, debounceHeld := false, rackTaken := false, pilotSent := none } := by
  cases h : p.ramp with
  | none => rw [Path.tick_of_still h, Path.counted_frame]
  | some q => rw [Path.tick_of_ramp h, Path.counted_frame]

theorem Path.tick_sequence (p : Path) :
    p.tick.seqCount = p.counted.seqCount ∧ p.tick.proofPos = p.counted.proofPos ∧ p.tick.record = p.counted.record := by
  rw [Path.tick_frame]
  exact ⟨rfl, rfl, rfl⟩

theorem Path.tick_attempt {k : Chan} {n : Nat} (h : p.nextAttempt = some ⟨k, n⟩) :
    p.tick.seqCount = 1 ∧ p.tick.proofPos = some ⟨k, n⟩ ∧
    p.tick.record = p.record.set k.val { p.record[k] with attempts := p.record[k].attempts + 1 } k.isLt := by
  obtain ⟨count, pos, record⟩ := p.tick_sequence
  rw [count, pos, record, Path.counted_attempt h]
  exact ⟨rfl, rfl, rfl⟩

theorem Path.tick_counts (h : p.nextAttempt = none) :
    p.tick.proofPos = p.proofPos ∧ p.tick.record = p.record ∧
    p.tick.seqCount = if p.phase = .settling then min 4800 (p.seqCount + 1)
      else if p.phase = .proving then min 1920 (p.seqCount + 1) else p.seqCount := by
  obtain ⟨count, pos, record⟩ := p.tick_sequence
  rw [count, pos, record, Path.counted_none h]
  exact ⟨rfl, rfl, rfl⟩

end

theorem Gain.advance_fade {gn : Gain} {f : Fade} (h : gn.fade = some f) : gn.advance = { gn with
    g := interp f.g0 f.g1 f.len (min f.len (f.n + 1)), fade := some { f with n := min f.len (f.n + 1) } } := by
  rw [Gain.advance, h]
  rfl

theorem Gain.advance_still {gn : Gain} (h : gn.fade = none) : gn.advance = gn := by
  unfold Gain.advance
  split
  next f e => cases h.symm.trans e
  next => rfl

theorem Dip.advance_resting {dp : Dip} (h : dp.stage = .idle) : dp.advance = dp := by
  unfold Dip.advance
  split
  next => rfl
  next e => exact absurd h e

theorem Dip.advance_moving {dp : Dip} (h : dp.stage ≠ .idle) : dp.advance = { dp with
    step := min 240 (dp.step + 1), d := dipFactor dp.stage (min 240 (dp.step + 1)) } := by
  unfold Dip.advance
  split
  next e => exact absurd e h
  next => rfl

theorem RoomRec.tick_timer (supply : Bool) (rm : RoomRec) (i : Fin 4) : (rm.tick supply).timers[i] =
    if supply = true ∨ rm.timers[i].running = false then rm.timers[i]
    else if rm.timers[i].remaining ≤ 1 then { rm.timers[i] with expiring := true }
    else { rm.timers[i] with remaining := rm.timers[i].remaining - 1 } := by
  cases supply with
  | true => rfl
  | false =>
    have held : (rm.tick false).timers[i] = rm.timers[i].advance := by
      simp only [RoomRec.tick, Bool.false_eq_true, if_false, Fin.getElem_fin, Vector.getElem_ofFn]
    rw [held, Timer.advance]
    exact if_congr (by simp) rfl rfl

theorem State.openPeriod_of_closed {s : State} (h : s.periodOpen = false) : s.openPeriod = s.overdue.tick :=
  if_neg (Bool.eq_false_iff.1 h)

theorem State.room_tick (s : State) (r : Room) : s.tick.room r = (s.room r).tick s.supply :=
  s.room_mapRooms r (RoomRec.tick s.supply)

/-- Settles O20: the ends of the counts, what is overdue, and the step of every count. -/
theorem countsRunOut : Obligations.CountsRunOut := by
  refine ⟨fun s r ho => ⟨fun hph hc => ?_, fun f hf hn => ?_, fun hst hc => ?_⟩, fun s ho => ⟨fun n hs hn => ?_, fun n hs hn => ?_⟩,
    fun s ho => State.overdue_eq_after ho, fun s hs hb ha => State.overdue_nothing hs hb ha, fun s ho => ?_⟩
  · exact congrArg Host.Outcome.next (State.takeDue_due (act := (·.settlingEnd r)) ho (State.settlingDue_iff.2 ⟨hph, hc⟩))
  · exact congrArg Host.Outcome.next (State.takeDue_due (act := (·.fadeEnd r)) ho ((Gain.fadeDue_iff _).2 ⟨f, hf, hn⟩))
  · refine (congrArg Host.Outcome.next (State.takeDue_due (act := (·.ascentEnd r)) ho ((Dip.ascentDue_iff _).2 ⟨hst, hc⟩))).trans ?_
    refine congrArg Host.Outcome.next (State.modRoom_congr s r _ _ ?_)
    rw [Dip.endAscent_eq]
  · exact congrArg Host.Outcome.next (State.takeDue_due (act := State.storeEnd) ho (State.storeDue_iff.2 ⟨n, hs, hn⟩))
  · exact congrArg Host.Outcome.next (State.takeDue_due (act := State.restartEnd) ho (State.restartDue_iff.2 ⟨n, hs, hn⟩))
  · rw [State.openPeriod_of_closed ho]
    generalize s.overdue = u
    refine ⟨rfl, fun hs => congrArg TableStore.tick hs, fun n hs => congrArg TableStore.tick hs, fun r => ?_⟩
    · intro a b
      have room : b = a.tick u.supply := u.room_tick r
      rw [room]
      refine ⟨rfl, ?_, fun k n h => Path.tick_attempt h, fun h => Path.tick_counts h, fun h => ?_, fun q h => ?_,
        fun h => Gain.advance_still h, fun f h => Gain.advance_fade h, fun h => Dip.advance_resting h, fun h => Dip.advance_moving h,
        fun i => RoomRec.tick_timer ..⟩
      · obtain ⟨count, pos, record⟩ := a.path.tick_sequence
        show a.path.tick = { a.path with
          seqCount := a.path.tick.seqCount, nextAttempt := none, proofPos := a.path.tick.proofPos, record := a.path.tick.record
          p := a.path.tick.p, ramp := a.path.tick.ramp, debounceHeld := false, rackTaken := false, pilotSent := none }
        rw [count, pos, record]
        exact a.path.tick_frame
      · show a.path.tick.p = a.path.p ∧ a.path.tick.ramp = none
        rw [Path.tick_of_still h, Path.counted_frame]
        exact ⟨rfl, h⟩
      · show a.path.tick.ramp = _ ∧ a.path.tick.p = _
        rw [Path.tick_of_ramp h]
        exact ⟨rfl, rfl⟩

end Sys2Proof.Machine
end

section
/-! When the rows of events act: O21. -/

namespace Sys2Proof.Machine

section
variable {s : State} {r : Room}

/-! ### When an event is due -/

theorem State.timerDue_iff {k : Fin 4} : s.timerDue r k = true ↔ s.supply = false ∧ s.store = .ready ∧ s.restart = none ∧
    (s.room r).timers[k].running = true ∧ (s.room r).timers[k].expiring = true := by
  simp only [State.timerDue, Timer.due, Bool.and_eq_true, State.cuesFire_iff, and_assoc]

theorem State.edgeDue_iff {i : Fin 16} : s.edgeDue i = true ↔ s.periodOpen = true ∧ s.inputs[i].run + 1 = 960 ∧
    s.inputs[i].sampled = false ∧ s.inputsFresh = false := by
  simp only [State.edgeDue, Bool.and_eq_true, decide_eq_true_eq, Bool.not_eq_true', and_assoc]
  exact Iff.rfl

theorem State.debounceDue_iff {w : RackWord} : s.debounceDue r w = true ↔ (s.room r).path.rackTaken = false ∧
    (s.room r).path.state = .listen ∧ (s.room r).path.phase = .debouncing ∧ (s.room r).path.debounceHeld = false ∧ w.present = true ∧
    11999 ≤ (s.room r).path.seqCount := by
  refine decide_eq_true_iff.trans ?_
  have count : Config.debounce ≤ (s.room r).path.seqCount + 1 ↔ 11999 ≤ (s.room r).path.seqCount := Nat.succ_le_succ_iff
  rw [count]

theorem RoomState.observed_iff (st : RoomState) : st.observed = true ↔ st ∈ [RoomState.ready, .prove, .live, .parked] := by
  cases st <;> decide

theorem Path.completesLoss_iff (p : Path) (b : Bool) : p.completesLoss b = true ↔ b = false ∧ 2399 ≤ p.rackAbsence := by
  have count : Config.rackLoss ≤ p.rackAbsence + 1 ↔ 2399 ≤ p.rackAbsence := Nat.succ_le_succ_iff
  simp only [Path.completesLoss, Bool.and_eq_true, Bool.not_eq_true', decide_eq_true_eq, count]

theorem State.rackLossDue_iff {w : RackWord} : s.rackLossDue r w = true ↔ (s.room r).path.rackTaken = false ∧
    (s.room r).path.state ∈ [RoomState.ready, .prove, .live, .parked] ∧ w.present = false ∧ 2399 ≤ (s.room r).path.rackAbsence := by
  simp only [State.rackLossDue, Bool.and_eq_true, Bool.not_eq_true', RoomState.observed_iff, Path.completesLoss_iff, and_assoc]

theorem laneFrame_eq (w : Word) : laneFrame w = w.toNat % 16777216 := by
  rw [laneFrame, BitVec.extractLsb'_toNat, Nat.shiftRight_zero]

theorem State.mayGive_iff {v : Option Nat} : s.mayGive r v = true ↔ r ∉ s.waiting ∨ s.timecodeValue s.words r = v := decide_eq_true_iff

theorem State.lossDue_iff : s.lossDue r = true ↔ ((s.room r).tc.state = .running ∨ (s.room r).tc.state = .stopped) ∧
    (s.room r).tc.absence = 2399 ∧ (s.room r).tc.taken = false ∧ (r ∉ s.waiting ∨ s.timecodeValue s.words r = none) := by
  have count : (s.room r).tc.absence + 1 = Config.timecodeLoss ↔ (s.room r).tc.absence = 2399 := Nat.succ_inj
  simp only [State.lossDue, Timecode.lossDue, Bool.and_eq_true, decide_eq_true_eq, State.mayGive_iff, count, and_assoc]

theorem State.stillDue_iff {same : Bool} : s.stillDue r same = true ↔ (s.room r).tc.state = .running ∧ (s.room r).tc.still = 5999 ∧
    (s.room r).tc.taken = false ∧ (if same then (s.room r).tc.last ≠ none else (s.room r).tc.absence < 2399) ∧
    (r ∉ s.waiting ∨ s.timecodeValue s.words r = if same then (s.room r).tc.last else none) := by
  have count : (s.room r).tc.still + 1 = Config.timecodeStill ↔ (s.room r).tc.still = 5999 := Nat.succ_inj
  have short : (s.room r).tc.absence + 1 < Config.timecodeLoss ↔ (s.room r).tc.absence < 2399 := Nat.succ_lt_succ_iff
  simp only [State.stillDue, Timecode.stillDue, Bool.and_eq_true, decide_eq_true_eq, State.mayGive_iff, State.stillValue, count,
    and_assoc]
  cases same with
  | true => simp only [if_true, Option.isSome_iff_ne_none]
  | false => simp only [Bool.false_eq_true, if_false, decide_eq_true_eq, short]

theorem State.handoverOf_isSome : (s.handoverOf r).isSome = true ↔ ∃ x ∈ s.handovers, x.room = r := by
  simp only [State.handoverOf, List.find?_isSome, decide_eq_true_eq]

theorem RoomState.runs_iff (st : RoomState) : st.runs = true ↔ st = .live ∨ st = .parked := by
  cases st <;> decide

theorem RoomRec.formatDue_iff (rm : RoomRec) : rm.formatDue = true ↔ rm.dip.fmtSlot ≠ none ∧
    ((rm.dip.stage = .descent ∧ 240 ≤ rm.dip.step) ∨ ((∃ q, rm.path.ramp = some q ∧ q.len ≤ q.n) ∧ rm.path.phase ≠ .rampingIn)) := by
  simp only [RoomRec.formatDue, Bool.and_eq_true, Bool.or_eq_true, Option.isSome_iff_ne_none, Dip.bottomDue_iff, Path.rampDue_iff,
    decide_eq_true_eq]

theorem State.blockReady_iff : s.blockReady = true ↔ s.periodOpen = true ∧ s.blockPos = 479 ∧
    ∀ q : Room, (s.room q).path.state = .live ∨ (s.room q).path.state = .parked →
      (s.room q).ahead ≠ none ∧ ¬(s.room q).formatDue = true := by
  have count : s.blockPos + 1 = Config.meterBlock ↔ s.blockPos = 479 := Nat.succ_inj
  simp only [State.blockReady, Bool.and_eq_true, decide_eq_true_eq, count, and_assoc, List.all_eq_true, List.mem_finRange, forall_const,
    Bool.or_eq_true, Bool.not_eq_true', ← Bool.not_eq_true, ← RoomState.runs_iff, Option.isSome_iff_ne_none, imp_iff_not_or]

/-! ### A row acts when its event is due -/

section
variable {i : Instr} {due : State → Bool} {act : State → State}

theorem State.takeDue_yes (h : due s.openPeriod = true) : s.takeDue due act = act s.openPeriod := if_pos h

theorem State.takeDue_no (h : due s.openPeriod = false) : s.takeDue due act = s := if_neg (Bool.eq_false_iff.1 h)

/-- A row whose event is due in the period that opens with it is the row in that period. -/
theorem exec_row_due (hi : ∀ u, exec i u = .next (u.takeDue due act)) (h : due s.openPeriod = true) :
    exec i s = exec i s.openPeriod := by
  rw [hi, hi, State.takeDue_yes h, State.takeDue_due s.periodOpen_openPeriod h]

theorem exec_row_waits (hi : ∀ u, exec i u = .next (u.takeDue due act)) (h : ¬due s.openPeriod = true) : exec i s = .next s := by
  rw [hi, State.takeDue_no (Bool.eq_false_iff.2 h)]

end

end

/-- Settles O21: each event's condition, and the rows by it. -/
theorem untimelyEventsWait : Obligations.UntimelyEventsWait := by
  refine ⟨fun s r k i => ?_, fun s r k i => ?_, fun s r w v same => ?_, fun s r order => ?_⟩
  · exact ⟨State.settlingDue_iff, Path.rampDue_iff _, Gain.fadeDue_iff _, Dip.bottomDue_iff _, Dip.ascentDue_iff _,
      State.timerDue_iff, State.edgeDue_iff, State.storeDue_iff, State.restartDue_iff⟩
  · have acts {due : State → Bool} {act : State → State} (h : due s.openPeriod = true) :
        (Host.Outcome.next (s.takeDue due act) : Host.Outcome State Fault Refusal) = .next (act s.openPeriod) := congrArg _ (State.takeDue_yes h)
    have waits {due : State → Bool} {act : State → State} (h : due s.openPeriod = false) :
        (Host.Outcome.next (s.takeDue due act) : Host.Outcome State Fault Refusal) = .next s := congrArg _ (State.takeDue_no h)
    exact ⟨acts, waits, acts, waits, acts, waits, acts, waits, acts, waits, acts, waits,
      acts (due := (·.edgeDue i)) (act := (·.takeContactEdge i)), waits (due := (·.edgeDue i)) (act := (·.takeContactEdge i)),
      acts, waits, acts, waits⟩
  · intro t p tc found gone given lost still
    have opened : t.periodOpen = true := s.periodOpen_openPeriod
    have value : given = t.timecodeValue t.words r := by
      simp only [given, State.timecodeValue, laneFrame_eq] <;> rfl
    have isFound : found ↔ t.debounceDue r (RackWord.ofWord w) = true := State.debounceDue_iff.symm
    have isGone : gone ↔ t.rackLossDue r (RackWord.ofFrame v) = true := State.rackLossDue_iff.symm
    have isLost : lost ↔ t.lossDue r = true := by
      rw [State.lossDue_iff, ← value]
    have isStill : still ↔ t.stillDue r same = true := by
      rw [State.stillDue_iff, ← value]
    refine ⟨fun h => ?_, fun h => exec_row_waits (fun _ => rfl) (mt isFound.2 h), fun h => ?_,
      fun h => exec_row_waits (fun _ => rfl) (mt isGone.2 h), fun h => exec_row_due (fun _ => rfl) (isLost.1 h),
      fun h => exec_row_waits (fun _ => rfl) (mt isLost.2 h), fun h => exec_row_due (fun _ => rfl) (isStill.1 h),
      fun h => exec_row_waits (fun _ => rfl) (mt isStill.2 h), fun h => exec_row_due (fun _ => rfl) (State.handoverOf_isSome.2 h),
      fun h => exec_row_waits (fun _ => rfl) fun k => ?_⟩
    · rw [exec_rackWord opened]
      exact congrArg Host.Outcome.next (State.takeDue_yes (act := (·.takeRack r (RackWord.ofWord w))) (isFound.1 h))
    · rw [exec_rackWord opened]
      exact congrArg Host.Outcome.next (State.takeDue_yes (act := (·.takeRack r (RackWord.ofFrame v))) (isGone.1 h))
    · obtain ⟨x, hx, e⟩ := State.handoverOf_isSome.1 k
      exact h x hx e
  · refine ⟨exec_pilotAttemptTimeout_closed, exec_pilotAttemptTimeout_open, State.attemptTimeout_none, ?_⟩
    intro formatDue ready
    have isReady : ready ↔ s.blockReady = true := by
      rw [State.blockReady_iff]
      simp only [RoomRec.formatDue_iff] <;> exact Iff.rfl
    refine ⟨fun h => congrArg Host.Outcome.next (if_pos h), fun h hr => congrArg Host.Outcome.next ?_,
      fun h hr => congrArg Host.Outcome.next ?_⟩
    · exact (if_neg (Bool.eq_false_iff.1 h)).trans (if_pos (isReady.1 hr))
    · exact (if_neg (Bool.eq_false_iff.1 h)).trans (if_neg (mt isReady.2 hr))

end Sys2Proof.Machine
end

section
/-! The supply warning: O27 (R27, R28, R171, R173, R210). -/

namespace Sys2Proof.Machine

/-! ### The order in which a command takes the rooms -/

theorem mem_visit (order : List Room) (r : Room) : r ∈ visit order := by
  by_cases h : r ∈ order <;> simp [visit, h]

theorem nodup_visit (order : List Room) : (visit order).Nodup := by
  refine List.nodup_append'.2 ⟨order.nodup_dedup, (List.nodup_finRange 12).filter _, fun r hr hn => ?_⟩
  exact of_decide_eq_true (List.mem_filter.1 hn).2 (List.mem_dedup.1 hr)

theorem visit_perm (order : List Room) : (visit order).Perm (List.finRange 12) :=
  (List.perm_ext_iff_of_nodup (nodup_visit order) (List.nodup_finRange 12)).2 fun r =>
    iff_of_true (mem_visit order r) (List.mem_finRange r)

/-! ### The assertion's effect on a room (R27) -/

/-- A room at the assertion of the supply warning: LIVE ramps out, a proof ends in READY (R27). -/
def RoomRec.supplied (rm : RoomRec) : RoomRec :=
  if rm.path.state = .live then { rm with path := rm.path.beginRamp .supplyRamp 0 Config.supplyRampLen }
  else if rm.path.state = .prove then rm.toReadyCancelled
  else rm

section
variable {s t : State} {r q : Room}

theorem State.supplyRoom_prove (h : (s.room r).path.state = .prove) : State.supplyRoom r s = s.transit r [] RoomRec.toReadyCancelled := by
  rw [State.supplyRoom, h]

theorem State.supplyRoom_of_not_prove (h : (s.room r).path.state ≠ .prove) :
    State.supplyRoom r s = s.modRoom r RoomRec.supplied := by
  unfold State.supplyRoom
  split
  next e => exact State.modRoom_congr s r _ _ (if_pos e).symm
  next e => exact absurd e h
  all_goals
    next e => exact (State.modRoom_self s r _ (by rw [RoomRec.supplied, e]; rfl)).symm

/-- The assertion in one room: its record, and the notice of a proof that ends (R7, R27). -/
theorem State.supplyRoom_effect (s : State) (r : Room) : s.onlyRoom (State.supplyRoom r s) r ∧ (State.supplyRoom r s).alarms = s.alarms ∧
    (State.supplyRoom r s).room r = (s.room r).supplied ∧
    (State.supplyRoom r s).mgmt = if (s.room r).path.state = .prove then s.mgmt.told r (s.room r).supplied [.roomState .prove] else s.mgmt := by
  by_cases h : (s.room r).path.state = .prove
  · have supplied : (s.room r).supplied = (s.room r).toReadyCancelled := by
      rw [RoomRec.supplied, h]
      rfl
    obtain ⟨only, alarms, mgmt, room⟩ := State.transit_plain (own := []) (f := RoomRec.toReadyCancelled) (by rw [h]; decide)
      (by rw [h]; exact nofun) (RoomRec.markEntry_of_still (.inl rfl))
    rw [State.supplyRoom_prove h, if_pos h, supplied]
    rw [room, h] at mgmt
    exact ⟨only, alarms, room, mgmt⟩
  · rw [State.supplyRoom_of_not_prove h, if_neg h]
    exact ⟨s.onlyRoom_modRoom r _, rfl, State.room_modRoom_self .., rfl⟩

/-- The rooms of a list, each once, at the assertion. -/
theorem State.supplyRooms_effect (l : List Room) (hl : l.Nodup) : ∀ s : State,
    s.onlyRooms (l.foldl (fun u r => State.supplyRoom r u) s) ∧ (l.foldl (fun u r => State.supplyRoom r u) s).alarms = s.alarms ∧
    (∀ q, (l.foldl (fun u r => State.supplyRoom r u) s).room q = if q ∈ l then (s.room q).supplied else s.room q) ∧
    (l.foldl (fun u r => State.supplyRoom r u) s).mgmt =
      (l.filter fun r => decide ((s.room r).path.state = .prove)).foldl
        (fun m r => m.told r (s.room r).supplied [.roomState .prove]) s.mgmt := by
  induction l with
  | nil => exact fun s => ⟨rfl, rfl, fun q => rfl, rfl⟩
  | cons r l ih =>
    intro s
    obtain ⟨fresh, rest⟩ := List.nodup_cons.1 hl
    obtain ⟨only, alarms, room, mgmt⟩ := s.supplyRoom_effect r
    obtain ⟨only', alarms', room', mgmt'⟩ := ih rest (State.supplyRoom r s)
    have others (q : Room) (hq : q ∈ l) : (State.supplyRoom r s).room q = s.room q :=
      only.2 q fun e => fresh (e ▸ hq)
    refine ⟨State.onlyRooms_trans only.1 only', alarms'.trans alarms, fun q => ?_, ?_⟩
    · rw [List.foldl_cons, room']
      by_cases hq : q ∈ l
      · rw [if_pos hq, if_pos (List.mem_cons_of_mem r hq), others q hq]
      · rw [if_neg hq]
        by_cases e : q = r
        · subst e
          rw [if_pos List.mem_cons_self, room]
        · rw [if_neg (List.not_mem_cons_of_ne_of_not_mem e hq), only.2 q e]
    · have proofs : (l.filter fun q => decide (((State.supplyRoom r s).room q).path.state = .prove)) =
          l.filter fun q => decide ((s.room q).path.state = .prove) :=
        List.filter_congr fun q hq => by rw [others q hq]
      have told : ∀ m : Mgmt, (l.filter fun q => decide ((s.room q).path.state = .prove)).foldl
            (fun m q => m.told q ((State.supplyRoom r s).room q).supplied [.roomState .prove]) m =
          (l.filter fun q => decide ((s.room q).path.state = .prove)).foldl
            (fun m q => m.told q (s.room q).supplied [.roomState .prove]) m := fun m =>
        List.foldl_ext _ _ m fun m q hq => by rw [others q (List.mem_filter.1 hq).1]
      rw [List.foldl_cons, mgmt', proofs, told, mgmt]
      by_cases h : (s.room r).path.state = .prove
      · rw [if_pos h, List.filter_cons_of_pos (by exact decide_eq_true h), List.foldl_cons]
      · rw [if_neg h, List.filter_cons_of_neg (by simpa using h)]

/-! ### The acts of an assertion (R27, R171, R173) -/

/-- A room's cursor and timers at the assertion (R171, R173). -/
def RoomRec.freeze (rm : RoomRec) : RoomRec := { rm.cursorToBase with timers := Vector.ofFn fun i => rm.timers[i].freeze }

theorem RoomRec.freeze_timer (rm : RoomRec) (i : Fin 4) : rm.freeze.timers[i] = { rm.timers[i] with expiring := false } := by
  simp only [RoomRec.freeze, Fin.getElem_fin, Vector.getElem_ofFn, Timer.freeze]

/-- A room after the assertion: its path, its cursor at base, its timers frozen (R27, R171, R173). -/
theorem RoomRec.supplied_freeze (rm : RoomRec) : rm.freeze.supplied = { rm with
    path :=
      if rm.path.state = .live then { rm.path with phase := .supplyRamp, ramp := some ⟨rm.path.p, 0, 192, 0⟩ }
      else if rm.path.state = .prove then { rm.path with
        state := .ready, phase := .none, proven := false, record := clearRecord, seqCount := 0, proofPos := none,
        nextAttempt := none, ramp := none, debounceHeld := false }
      else rm.path
    cursor := baseOf rm.list
    timers := rm.freeze.timers } := by
  unfold RoomRec.supplied
  have state : rm.freeze.path.state = rm.path.state := rfl
  rw [state]
  by_cases hlive : rm.path.state = .live
  · rw [if_pos hlive, if_pos hlive]
    rfl
  · rw [if_neg hlive, if_neg hlive]
    by_cases hprove : rm.path.state = .prove
    · rw [if_pos hprove, if_pos hprove]
      rfl
    · rw [if_neg hprove, if_neg hprove]
      rfl

/-- The rooms of a part, frozen, act one after another (R27). -/
theorem State.supplied_rooms (s : State) (order : List Room) :
    s.onlyRooms (forRooms order State.supplyRoom (s.mapRooms RoomRec.freeze)) ∧
    (forRooms order State.supplyRoom (s.mapRooms RoomRec.freeze)).alarms = s.alarms ∧
    (∀ r, (forRooms order State.supplyRoom (s.mapRooms RoomRec.freeze)).room r = (s.room r).freeze.supplied) ∧
    (forRooms order State.supplyRoom (s.mapRooms RoomRec.freeze)).mgmt =
      ((visit order).filter fun r => decide ((s.room r).path.state = .prove)).foldl
        (fun m r => m.told r (s.room r).freeze.supplied [.roomState .prove]) s.mgmt := by
  obtain ⟨only, alarms, room, mgmt⟩ := State.supplyRooms_effect (visit order) (nodup_visit order) (s.mapRooms RoomRec.freeze)
  simp only [State.room_mapRooms] at room mgmt
  exact ⟨State.onlyRooms_trans (s.onlyRooms_mapRooms _) only, alarms, fun r => (room r).trans (if_pos (mem_visit order r)), mgmt⟩

end

/-- The statement of O27 about the acts of an assertion. -/
theorem State.supplyActs_effect (s : State) (order : List Room) (supplyFirst : Bool) :
    let t := s.supplyActs order supplyFirst
    (let proofs (m : Mgmt) : Mgmt := ((visit order).filter fun r => decide ((s.room r).path.state = .prove)).foldl
        (fun m r => m.told r (s.room r).freeze.supplied [.roomState .prove]) m
     t.mgmt = if supplyFirst then proofs (s.mgmt.raise none (.supply true)) else (proofs s.mgmt).raise none (.supply true)) ∧
    ({ s with supply := true, supplyDue := false } : State).onlyRooms t ∧ t.alarms = s.alarms ∧
    ∀ r : Room, t.room r = (s.room r).freeze.supplied := by
  cases supplyFirst with
  | true =>
    obtain ⟨only, alarms, room, mgmt⟩ :=
      State.supplied_rooms (({ s with supply := true, supplyDue := false } : State).notifyPart (.supply true)) order
    exact ⟨mgmt, State.onlyRooms_trans (State.onlyRooms_notifyPart _ _) only, alarms, room⟩
  | false =>
    obtain ⟨only, alarms, room, mgmt⟩ := State.supplied_rooms ({ s with supply := true, supplyDue := false } : State) order
    exact ⟨congrArg (fun m : Mgmt => m.raise none (.supply true)) mgmt,
      State.onlyRooms_trans only (State.onlyRooms_notifyPart _ _), alarms, room⟩

/-- Settles O27: by the state of the line. -/
theorem supplyWarningActs : Obligations.SupplyWarningActs := by
  unfold Obligations.SupplyWarningActs
  intro acted
  have acts (s : State) (order : List Room) (supplyFirst : Bool) : acted s (s.supplyActs order supplyFirst) order supplyFirst := by
    obtain ⟨mgmt, only, alarms, room⟩ := s.supplyActs_effect order supplyFirst
    refine ⟨?_, only, alarms, fun r => ?_⟩
    · simp only [room]
      exact mgmt
    · rw [room r, RoomRec.supplied_freeze]
      exact ⟨rfl, fun i => RoomRec.freeze_timer _ i⟩
  refine ⟨fun s order supplyFirst ho => ⟨fun hs => ⟨s.supplyActs order supplyFirst, ?_, acts s order supplyFirst⟩, fun hs => ?_⟩,
    fun s => ⟨fun hd => ?_, fun hd => if_neg (Bool.eq_false_iff.1 hd)⟩, fun s order supplyFirst => ⟨?_, ?_⟩,
    fun s ho => ⟨fun hs => ?_, fun hs => ?_⟩⟩
  · show Host.Outcome.next (s.openPeriod.assertSupply order supplyFirst) = _
    rw [State.openPeriod_of_open ho]
    exact congrArg Host.Outcome.next (if_neg (Bool.eq_false_iff.1 hs))
  · show Host.Outcome.next (s.openPeriod.assertSupply order supplyFirst) = _
    rw [State.openPeriod_of_open ho]
    exact congrArg Host.Outcome.next (if_pos hs)
  · have due : s.dueSupply = s.supplyActs [] false := if_pos hd
    rw [due]
    exact acts s [] false
  · show Host.Outcome.next (s.openPeriod.assertSupply order supplyFirst) = .next (s.openPeriod.openPeriod.assertSupply order supplyFirst)
    rw [State.openPeriod_of_open s.periodOpen_openPeriod]
  · show Host.Outcome.next s.openPeriod.releaseSupply = .next s.openPeriod.openPeriod.releaseSupply
    rw [State.openPeriod_of_open s.periodOpen_openPeriod]
  · show Host.Outcome.next s.openPeriod.releaseSupply = _
    rw [State.openPeriod_of_open ho]
    exact congrArg Host.Outcome.next (if_pos hs)
  · show Host.Outcome.next s.openPeriod.releaseSupply = _
    rw [State.openPeriod_of_open ho]
    exact congrArg Host.Outcome.next (if_neg (Bool.eq_false_iff.1 hs))

end Sys2Proof.Machine
end

section
/-! Timecode: O13 (R44 to R48). -/

namespace Sys2Proof.Machine

/-! ### The events of a value and the record after them (R45, R46) -/

theorem classify_none (t : Nat) : classify none t = .jump t := rfl

theorem classify_same (f : Nat) : classify (some f) f = .same := if_pos rfl

theorem classify_advance {f t : Nat} (h : t = f + 1 ∨ t = f + 2 ∨ t = f + 3) : classify (some f) t = .advance t :=
  (if_neg (by omega)).trans (if_pos (by omega))

theorem classify_jump {f t : Nat} (h : t < f ∨ f + 3 < t) : classify (some f) t = .jump t :=
  (if_neg (by omega)).trans (if_neg (by omega))

section
variable {tc : Timecode}

theorem Timecode.held_lost (h : tc.state = .lost) : tc.held = { tc with state := .running, still := 0, absence := 0 } := by
  rw [Timecode.held, h]

theorem Timecode.held_stopped (h : tc.state = .stopped) : tc.held = { tc with absence := 0 } := by
  unfold Timecode.held
  split <;> simp_all

theorem Timecode.held_running (h : tc.state = .running) (hs : tc.still < 5999) :
    tc.held = { tc with still := tc.still + 1, absence := 0 } := by
  have early : ¬Config.timecodeStill ≤ tc.still + 1 := Nat.not_le.2 (Nat.succ_lt_succ hs)
  have count : min Config.timecodeStill (tc.still + 1) = tc.still + 1 := Nat.min_eq_right (Nat.le_of_lt (Nat.succ_lt_succ hs))
  unfold Timecode.held
  split
  next e => cases h.symm.trans e
  next => rw [if_neg early, count, h]
  all_goals
    next e => cases h.symm.trans e

theorem Timecode.held_still (h : tc.state = .running) (hs : tc.still = 5999) :
    tc.held = { tc with state := .stopped, still := 6000, absence := 0 } := by
  rw [Timecode.held, h, hs]
  rfl

theorem Timecode.missed_lost (h : tc.state = .lost) : tc.missed = tc := by
  unfold Timecode.missed
  split <;> simp_all

/-- A period without a value, of a room that has its timecode (R46). -/
theorem Timecode.missed_present (h : tc.state = .running ∨ tc.state = .stopped) : tc.missed =
    if 2400 ≤ tc.absence + 1 then { tc with state := .lost, still := 0, absence := 2400 }
    else { tc with
      state := if tc.state = .running ∧ 6000 ≤ tc.still + 1 then .stopped else tc.state
      still := min 6000 (tc.still + 1)
      absence := tc.absence + 1 } := by
  unfold Timecode.missed
  split
  next e => rcases h with h | h <;> cases h.symm.trans e
  next e => rcases h with h | h <;> cases h.symm.trans e
  all_goals rfl

theorem Timecode.missed_loss (h : tc.state = .running ∨ tc.state = .stopped) (ha : tc.absence = 2399) :
    tc.missed = { tc with state := .lost, still := 0, absence := 2400 } := by
  rw [Timecode.missed_present h, if_pos (by omega)]

theorem Timecode.missed_still (h : tc.state = .running) (ha : tc.absence < 2399) (hs : tc.still = 5999) :
    tc.missed = { tc with state := .stopped, still := 6000, absence := tc.absence + 1 } := by
  rw [Timecode.missed_present (.inl h), if_neg (by omega), if_pos ⟨h, by omega⟩, hs]
  rfl

theorem Timecode.missed_running (h : tc.state = .running) (ha : tc.absence < 2399) (hs : tc.still < 5999) :
    tc.missed = { tc with still := tc.still + 1, absence := tc.absence + 1 } := by
  rw [Timecode.missed_present (.inl h), if_neg (by omega), if_neg fun k => by omega, Nat.min_eq_right (by omega)]

theorem Timecode.missed_stopped (h : tc.state = .stopped) (ha : tc.absence < 2399) :
    tc.missed = { tc with still := min 6000 (tc.still + 1), absence := tc.absence + 1 } := by
  rw [Timecode.missed_present (.inr h), if_neg (by omega), if_neg fun k => by cases h.symm.trans k.1]

end

/-! ### A room's timecode of the period (R44 to R48) -/

section
variable {s : State} {r : Room}

theorem State.takeTimecode_absent (h : (s.room r).tc.state = .absent) (v : Option Nat) : s.takeTimecode r v = s := if_pos h

theorem State.takeTimecode_none (h : (s.room r).tc.state ≠ .absent) :
    s.takeTimecode r none = s.moveTimecode r (s.room r).tc.missed false := if_neg h

/-- The last frame again (R45). -/
theorem State.takeTimecode_same {f : Nat} (h : (s.room r).tc.state ≠ .absent) (hf : (s.room r).tc.last = some f) :
    s.takeTimecode r (some f) = s.moveTimecode r (s.room r).tc.held false := by
  have same : classify (s.room r).tc.last f = .same := hf ▸ classify_same f
  rw [State.takeTimecode, if_neg h]
  simp only [same]
  rfl

theorem State.moveTimecode_changes {new : Timecode} (h : (s.room r).tc.state ≠ new.state) (jump : Bool) :
    s.moveTimecode r new jump = (s.modRoom r fun rm => { rm with tc := new }).notify r
      (.timecode (s.room r).tc.state new.state (s.room r).tc.last new.last jump) := if_pos (.inl h)

/-- A record that moves, on the room's reading of the period (R44, R48). -/
def State.movedTo (s : State) (r : Room) (new : Timecode) : State :=
  ((s.modRoom r fun rm => { rm with tc := new }).notify r
    (.timecode (s.room r).tc.state new.state (s.room r).tc.last new.last false)).modRoom r
      fun rm => { rm with tc := { rm.tc with taken := true } }

theorem State.takeOfPeriod_none (h : (s.room r).tc.state ≠ .absent) (hm : (s.room r).tc.state ≠ (s.room r).tc.missed.state) :
    s.takeOfPeriod r none = s.movedTo r (s.room r).tc.missed := by
  rw [State.takeOfPeriod, State.takeTimecode_none h, State.moveTimecode_changes hm]
  rfl

theorem State.takeOfPeriod_same {f : Nat} (h : (s.room r).tc.state ≠ .absent) (hf : (s.room r).tc.last = some f)
    (hm : (s.room r).tc.state ≠ (s.room r).tc.held.state) :
    s.takeOfPeriod r (some f) = s.movedTo r (s.room r).tc.held := by
  rw [State.takeOfPeriod, State.takeTimecode_same h hf, State.moveTimecode_changes hm]
  rfl

/-- A row of the room's timecode, in an open period (R45, R46). -/
theorem exec_timecodeLoss (ho : s.periodOpen = true) :
    exec (.timecodeLoss r) s = .next (if s.lossDue r then s.takeRow r none else s) :=
  congrArg Host.Outcome.next (State.takeDue_of_open ho _ _)

theorem exec_timecodeStillExpiry (ho : s.periodOpen = true) (same : Bool) :
    exec (.timecodeStillExpiry r same) s = .next (if s.stillDue r same then s.takeRow r (s.stillValue r same) else s) :=
  congrArg Host.Outcome.next (State.takeDue_of_open ho _ _)

theorem State.takeRow_ahead (h : r ∉ s.waiting) (v : Option Nat) : s.takeRow r v = s.takeOfPeriod r v := if_neg h

theorem State.takeRow_reading (h : r ∈ s.waiting) (v : Option Nat) : s.takeRow r v = s.readWords r := if_pos h

/-- TIMECODE_LOSS ahead of the frame (R46). -/
theorem exec_timecodeLoss_ahead (ho : s.periodOpen = true) (hw : r ∉ s.waiting)
    (hst : (s.room r).tc.state = .running ∨ (s.room r).tc.state = .stopped) (ha : (s.room r).tc.absence = 2399)
    (ht : (s.room r).tc.taken = false) :
    exec (.timecodeLoss r) s = .next (s.movedTo r { (s.room r).tc with state := .lost, still := 0, absence := 2400 }) := by
  have missed := Timecode.missed_loss hst ha
  have present : (s.room r).tc.state ≠ .absent := by rcases hst with h | h <;> rw [h] <;> decide
  have leaves : (s.room r).tc.state ≠ (s.room r).tc.missed.state := by
    rw [missed]
    rcases hst with h | h <;> simp only [h] <;> decide
  rw [exec_timecodeLoss ho, if_pos (State.lossDue_iff.2 ⟨hst, ha, ht, .inl hw⟩), State.takeRow_ahead hw,
    State.takeOfPeriod_none present leaves, missed]

/-- TIMECODE_STILL_EXPIRY ahead of the frame (R45, R46). -/
theorem exec_timecodeStillExpiry_ahead (ho : s.periodOpen = true) (hw : r ∉ s.waiting) (same : Bool)
    (hst : (s.room r).tc.state = .running) (hs : (s.room r).tc.still = 5999) (ht : (s.room r).tc.taken = false)
    (hv : if same then (s.room r).tc.last ≠ none else (s.room r).tc.absence < 2399) :
    exec (.timecodeStillExpiry r same) s = .next (s.movedTo r { (s.room r).tc with
      state := .stopped, still := 6000, absence := if same then 0 else (s.room r).tc.absence + 1 }) := by
  have present : (s.room r).tc.state ≠ .absent := by rw [hst]; decide
  rw [exec_timecodeStillExpiry ho, if_pos (State.stillDue_iff.2 ⟨hst, hs, ht, hv, .inl hw⟩), State.takeRow_ahead hw]
  cases same with
  | true =>
    obtain ⟨f, hf⟩ := Option.ne_none_iff_exists'.1 hv
    have held := Timecode.held_still hst hs
    have given : s.stillValue r true = some f := hf
    rw [given, State.takeOfPeriod_same present hf (by rw [held]; simp only [hst]; decide), held]
    rfl
  | false =>
    have missed := Timecode.missed_still hst hv hs
    have given : s.stillValue r false = none := rfl
    rw [given, State.takeOfPeriod_none present (by rw [missed]; simp only [hst]; decide), missed]
    rfl

theorem State.timecodeValue_eq (s : State) (ws : Vector Word 256) (r : Room) : s.timecodeValue ws r =
    match (s.room r).activeMap.tc with
    | some l => if laneGood ws[l] then some (ws[l].toNat % 16777216) else none
    | none => none := by
  simp only [State.timecodeValue, laneFrame_eq] <;> rfl

end

/-- Settles O13: the record, the rows ahead of the frame, the rows of a room that reads, and the rows of a taken period. -/
theorem timecodeMoves : Obligations.TimecodeMoves := by
  refine ⟨fun s r new jump => rfl, fun s r => ⟨State.takeTimecode_absent, State.takeTimecode_none⟩, fun tc f t => ?_,
    fun s r ho hw => ⟨fun hst ha ht => ?_, fun same hst hs ht hv => ?_⟩, fun s r ho hw => ?_, fun s r same ho ht => ⟨?_, ?_⟩⟩
  · exact ⟨rfl, classify_same f, classify_advance, classify_jump, rfl, rfl, Timecode.held_lost, Timecode.held_stopped,
      Timecode.held_running, Timecode.held_still, Timecode.missed_lost, Timecode.missed_loss, Timecode.missed_still,
      Timecode.missed_running, Timecode.missed_stopped⟩
  · exact exec_timecodeLoss_ahead ho hw hst ha ht
  · rw [exec_timecodeStillExpiry_ahead ho hw same hst hs ht hv, State.movedTo, hst]
  · intro tc given
    have value : given = s.timecodeValue s.words r := (s.timecodeValue_eq s.words r).symm
    refine ⟨fun hg => ?_, fun hg hst ha ht => ?_, fun same => ⟨fun hg => ?_, fun hg hst hs ht hv => ?_⟩⟩
    · rw [exec_timecodeLoss ho, if_neg fun k => ?_]
      obtain ⟨-, -, -, gives⟩ := State.lossDue_iff.1 k
      exact hg (value.trans (gives.resolve_left fun n => n hw))
    · rw [exec_timecodeLoss ho, if_pos (State.lossDue_iff.2 ⟨hst, ha, ht, .inr (value ▸ hg)⟩), State.takeRow_reading hw]
    · rw [exec_timecodeStillExpiry ho, if_neg fun k => ?_]
      obtain ⟨-, -, -, -, gives⟩ := State.stillDue_iff.1 k
      exact hg (value.trans (gives.resolve_left fun n => n hw))
    · rw [exec_timecodeStillExpiry ho, if_pos (State.stillDue_iff.2 ⟨hst, hs, ht, hv, .inr (value ▸ hg)⟩), State.takeRow_reading hw]
  · rw [exec_timecodeLoss ho, if_neg fun k => ?_]
    obtain ⟨-, -, fresh, -⟩ := State.lossDue_iff.1 k
    cases ht.symm.trans fresh
  · rw [exec_timecodeStillExpiry ho, if_neg fun k => ?_]
    obtain ⟨-, -, fresh, -⟩ := State.stillDue_iff.1 k
    cases ht.symm.trans fresh

end Sys2Proof.Machine
end

section
/-! What the Cue Engine and a room's events can touch: rooms, alarms, notices and contact outputs, and of a room never the values of its
programme channels. -/

namespace Sys2Proof.Machine

/-- Nothing differs between `s` and `t` but the rooms' records, the alarm list, the contact outputs and the notices; and every room has
the values of its programme channels. -/
structure State.Cued (s t : State) : Prop where
  frame : t = { s with
    rooms := t.rooms
    alarms := t.alarms
    outputs := t.outputs
    mgmt := { s.mgmt with
      notices := t.mgmt.notices, dropCount := t.mgmt.dropCount, discardTotal := t.mgmt.discardTotal } }
  prog : ∀ q, (t.room q).prog = (s.room q).prog

section
variable {s t u : State} {r : Room}

theorem State.Cued.refl (s : State) : s.Cued s := ⟨rfl, fun _ => rfl⟩

theorem State.Cued.trans (h : s.Cued t) (k : t.Cued u) : s.Cued u :=
  ⟨by rw [k.frame, h.frame], fun q => (k.prog q).trans (h.prog q)⟩

theorem State.Cued.of_onlyRooms (h : s.onlyRooms t) (hp : ∀ q, (t.room q).prog = (s.room q).prog) : s.Cued t :=
  ⟨by
    show t = { s with
      rooms := t.rooms, alarms := t.alarms, outputs := t.outputs
      mgmt := { s.mgmt with
        notices := t.mgmt.notices, dropCount := t.mgmt.dropCount, discardTotal := t.mgmt.discardTotal } }
    rw [State.onlyRooms_outputs h]
    exact h, hp⟩

theorem State.Cued.of_onlyRoom (h : s.onlyRoom t r) (hp : (t.room r).prog = (s.room r).prog) : s.Cued t :=
  .of_onlyRooms h.1 fun q => by
    by_cases e : q = r
    · subst e
      exact hp
    · rw [h.2 q e]

theorem State.Cued.modRoom {f : RoomRec → RoomRec} (hf : (f (s.room r)).prog = (s.room r).prog) : s.Cued (s.modRoom r f) :=
  .of_onlyRoom (s.onlyRoom_modRoom r f) (by rw [State.room_modRoom_self, hf])

theorem State.Cued.notify (s : State) (r : Room) (b : NoticeBody) : s.Cued (s.notify r b) :=
  .of_onlyRooms (State.onlyRooms_notify s r b) fun _ => rfl

theorem State.Cued.notifyPart (s : State) (b : NoticeBody) : s.Cued (s.notifyPart b) :=
  .of_onlyRooms (State.onlyRooms_notifyPart s b) fun _ => rfl

end

/-! ### Rooms keep the values of their programme channels -/

section
variable {rm : RoomRec} {v : Vector Int 16}

theorem RoomRec.prog_applyChange (rm : RoomRec) (c : DipChange) : (rm.applyChange c).prog = rm.prog := by
  cases c with
  | format i =>
    show (rm.applyFormat i).prog = rm.prog
    unfold RoomRec.applyFormat
    split <;> rfl
  | source m => rfl
  | bank n => rfl

theorem RoomRec.prog_applySlots (rm : RoomRec) : rm.applySlots.prog = rm.prog :=
  RoomRec.applySlots_keeps (P := fun x => x.prog = rm.prog) rfl (fun x c hx => (x.prog_applyChange c).trans hx) fun _ hx => hx

theorem RoomRec.prog_endDip (rm : RoomRec) : rm.endDip.prog = rm.prog := by
  unfold RoomRec.endDip
  split
  · rfl
  · exact rm.prog_applySlots

theorem RoomRec.prog_bottom (rm : RoomRec) : rm.bottom.prog = rm.prog := rm.prog_applySlots

theorem RoomRec.prog_afterTransit {f : RoomRec → RoomRec} (hf : ∀ x, (f x).prog = x.prog) (rm : RoomRec) :
    (rm.afterTransit f).prog = rm.prog :=
  RoomRec.afterTransit_keeps (P := fun x => x.prog = rm.prog) rfl (fun _ => rm.prog_endDip) (fun x hx => (hf x).trans hx) fun _ hx => hx

theorem RoomRec.prog_toSettling (rm : RoomRec) : rm.toSettling.prog = rm.prog := by
  unfold RoomRec.toSettling
  dsimp only
  split <;> rfl

theorem RoomRec.prog_toProve (rm : RoomRec) : rm.toProve.prog = rm.prog := by
  unfold RoomRec.toProve
  dsimp only
  split <;> rfl

end

/-! ### Actions, firings and runs (R144, R160 to R163) -/

section
variable {s t u : State} {r : Room}

theorem State.Cued.transit (s : State) (r : Room) (own : List NoticeBody) {f : RoomRec → RoomRec} (hf : ∀ x, (f x).prog = x.prog) :
    s.Cued (s.transit r own f) :=
  .of_onlyRoom (s.transit_onlyRoom r own f) (by rw [State.transit_room_self, RoomRec.prog_afterTransit hf])

theorem State.Cued.enterOff (s : State) (r : Room) : s.Cued (s.enterOff r) :=
  .of_onlyRoom (s.enterOff_onlyRoom r) (by
    rw [State.enterOff_room]
    exact RoomRec.prog_afterTransit (f := RoomRec.toOff) (fun _ => rfl) _)

theorem State.Cued.handOn (s : State) (r : Room) (c : DipChange) : s.Cued (s.handOn r c) :=
  .of_onlyRooms (State.onlyRooms_handOn s r c)
    (State.forall_handOn (Q := fun q rm => rm.prog = (s.room q).prog) (fun _ => rfl) (fun _ => rfl) fun _ => RoomRec.prog_applyChange _ c)

theorem State.Cued.dipBottom (s : State) (r : Room) : s.Cued (s.dipBottom r) :=
  .of_onlyRooms (State.onlyRooms_dipBottom s r)
    (State.forall_dipBottom (Q := fun q rm => rm.prog = (s.room q).prog) (fun _ => rfl) (RoomRec.prog_bottom _))

theorem State.Cued.rampEnd (s : State) (r : Room) : s.Cued (s.rampEnd r) := by
  unfold State.rampEnd
  split
  · exact .modRoom (by rfl)
  · exact .transit s r [] fun _ => rfl
  · exact .transit s r [] fun _ => rfl
  · exact .enterOff s r
  all_goals exact .refl s

theorem State.Cued.goJudge (s : State) (r : Room) (t : GoTarget) : s.Cued (s.goJudge r t).1 := by
  have low {x : State × Result} (h : s.Cued x.1) : s.Cued (if s.supply then (s, Result.supplyLow) else x).1 := by
    split
    · exact .refl s
    · exact h
  cases t with
  | goOff =>
    show s.Cued (s.goOff r).1
    unfold State.goOff
    split
    · exact .refl s
    · split
      · exact .refl s
      · dsimp only
        exact .modRoom (by rfl)
    all_goals exact .enterOff s r
  | goStop =>
    show s.Cued (s.goStop r).1
    unfold State.goStop
    split
    · exact .enterOff s r
    · exact .enterOff s r
    · exact .enterOff s r
    · exact .transit s r [] fun _ => rfl
    · exact .transit s r [] fun _ => rfl
    · exact .transit s r [] fun _ => rfl
    all_goals exact .refl s
  | goListen =>
    refine low ?_
    unfold State.goListen
    split
    · exact .transit s r [] RoomRec.prog_toSettling
    · exact .transit s r [] RoomRec.prog_toSettling
    all_goals exact .refl s
  | goProve =>
    refine low ?_
    unfold State.goProve
    split
    · split
      · exact .transit s r _ RoomRec.prog_toProve
      · exact .transit s r _ RoomRec.prog_toProve
    all_goals exact .refl s
  | goLive =>
    refine low ?_
    unfold State.goLive
    split
    · split
      · exact .transit s r [] fun _ => rfl
      · exact .refl s
    · exact .transit s r [] fun _ => rfl
    · split <;> exact .refl s
    all_goals exact .refl s
  | goPark =>
    refine low ?_
    unfold State.goPark
    split
    · split
      · dsimp only
        exact .modRoom (by rfl)
      all_goals exact .refl s
    · exact .refl s

theorem State.Cued.setOutput (s : State) (o : Fin 24) (on : Bool) (why : LastSet) : s.Cued (s.setOutput o on why) :=
  ⟨rfl, fun _ => rfl⟩

theorem State.Cued.setGain (s : State) (r : Room) (step ms : Nat) : s.Cued (s.setGain r step ms) := .modRoom (by rfl)

theorem State.Cued.setMute (s : State) (r : Room) (yes : Bool) : s.Cued (s.setMute r yes) := .modRoom (by rfl)

theorem State.Cued.setMask (s : State) (r : Room) (m : Mask) : s.Cued (s.setMask r m) := .modRoom (by rfl)

theorem State.Cued.timerStart (s : State) (r : Room) (t : Fin 4) (unit : TimerUnit) (count : Nat) (rep : Bool) (target : Nat) :
    s.Cued (s.timerStart r t unit count rep target) := .modRoom (by rfl)

theorem State.Cued.timerStop (s : State) (r : Room) (t : Fin 4) : s.Cued (s.timerStop r t) := .modRoom (by rfl)

theorem State.Cued.perform (s : State) (r : Room) (number : Nat) (a : Action) : s.Cued (s.perform r number a).1 := by
  cases a with
  | setFormat i =>
    simp only [State.perform, State.selectFormat]
    split
    · exact .refl s
    · exact .handOn s r _
  | setSource m => exact .handOn s r _
  | selectBank n => exact .handOn s r _
  | fade step ms => exact .setGain s r _ _
  | mute yes => exact .setMute s r _
  | mask kinds blocks => exact .setMask s r _
  | contact o on =>
    simp only [State.perform]
    split
    · exact .setOutput s o on _
    · exact .refl s
  | go t => exact .goJudge s r t
  | timerStart t unit count rep target =>
    simp only [State.perform]
    split
    · exact .timerStart s r ..
    · exact .refl s
  | timerStop t =>
    simp only [State.perform]
    split
    · exact .timerStop s r _
    · exact .refl s

theorem State.Cued.fireSteps (r : Room) (number : Nat) (l : List (Nat × Action)) (f : Fired) :
    f.st.Cued (l.foldl (fireStep r number) f).st :=
  List.foldlRecOn (motive := fun g : Fired => f.st.Cued g.st) l _ (.refl _) fun g hg a _ => hg.trans (.perform g.st r number a.2)

theorem State.Cued.fire (s : State) (r : Room) (c : Cue) (why : Cause) : s.Cued (s.fire r c why).st := by
  have actions := (State.Cued.notify s r (.cueFired c.number c.trigger why)).trans (.fireSteps r c.number c.numbered ⟨_, []⟩)
  unfold State.fire
  dsimp only
  split
  · exact actions
  · exact actions.trans (.notify _ r _)

theorem State.Cued.fireAll (s : State) (r : Room) (l : List (Cue × Cause)) : s.Cued (s.fireAll r l) :=
  List.foldlRecOn (motive := s.Cued) l _ (.refl _) fun u hu x _ => hu.trans (.fire u r x.1 x.2)

theorem State.Cued.fireRun (r : Room) (why : Cause) : ∀ (l : List Cue) (s : State), s.Cued (s.fireRun r why l)
  | [], s => .refl s
  | c :: cs, s => by
    unfold State.fireRun
    dsimp only
    split
    · exact .fire s r c why
    · exact (State.Cued.fire s r c why).trans (.fireRun r why cs _)

theorem State.Cued.runTo (s : State) (r : Room) (jump : Bool) (t : Nat) : s.Cued (s.runTo r jump t) :=
  (State.Cued.modRoom (by rfl)).trans (.fireRun r _ _ _)

theorem State.Cued.advanceTo (s : State) (r : Room) (t : Nat) : s.Cued (s.advanceTo r t) := by
  unfold State.advanceTo
  split
  · exact .runTo s r false t
  · exact .refl s

theorem State.Cued.jumpTo (s : State) (r : Room) (t : Nat) : s.Cued (s.jumpTo r t) := by
  unfold State.jumpTo
  split
  · exact (State.Cued.modRoom (by rfl)).trans (.runTo _ r true t)
  · exact .refl s

theorem State.Cued.expire (s : State) (r : Room) (t : Fin 4) : s.Cued (s.expire r t) := by
  unfold State.expire
  dsimp only
  split
  · exact .modRoom (by rfl)
  · split
    · exact (State.Cued.modRoom (by rfl)).trans (.fire _ r _ _)
    · exact (State.Cued.modRoom (by rfl)).trans (.notify _ r _)

theorem State.Cued.takeHandover (s : State) (h : Handover) : s.Cued (s.takeHandover h) := by
  unfold State.takeHandover
  split
  · exact List.foldlRecOn (motive := s.Cued) h.conds _ (.refl _) fun u hu x _ => hu.trans (.fireAll u h.room _)
  · exact .refl s

theorem State.Cued.takeEdge (s : State) (r : Room) (i : Fin 16) (e : Edge) : s.Cued (s.takeEdge r i e) := by
  unfold State.takeEdge
  split
  · exact .fireAll s r _
  · exact .refl s

/-! ### Timecode (R44 to R49) -/

theorem State.Cued.moveTimecode (s : State) (r : Room) (new : Timecode) (jump : Bool) : s.Cued (s.moveTimecode r new jump) := by
  rcases s.moveTimecode_cases r new jump with e | ⟨b, e⟩ <;> rw [e]
  · exact .modRoom (by rfl)
  · exact (State.Cued.modRoom (by rfl)).trans (.notify _ r b)

theorem State.Cued.takeTimecode (s : State) (r : Room) (v : Option Nat) : s.Cued (s.takeTimecode r v) := by
  unfold State.takeTimecode
  dsimp only
  split
  · exact .refl s
  · split
    · exact .moveTimecode s r _ _
    · split
      · exact (State.Cued.moveTimecode s r _ _).trans (.advanceTo _ r _)
      · exact (State.Cued.moveTimecode s r _ _).trans (.jumpTo _ r _)
      · exact .moveTimecode s r _ _

theorem State.Cued.takeOfPeriod (s : State) (r : Room) (v : Option Nat) : s.Cued (s.takeOfPeriod r v) :=
  (State.Cued.takeTimecode s r v).trans (.modRoom (by rfl))

theorem State.Cued.takeOnce (s : State) (r : Room) (v : Option Nat) : s.Cued (s.takeOnce r v) := by
  unfold State.takeOnce
  split
  · exact .refl s
  · exact .takeOfPeriod s r v

end

end Sys2Proof.Machine
end

section
/-! Feed frames: O12 (R31 to R36, R44, R187, R213, R214). -/

namespace Sys2Proof.Machine

/-! ### Words bit by bit (R32, R213, R214) -/

/-- The parity of the low `n` bits, as a count of ones. -/
theorem parity_eq (w : Nat) : ∀ n, parity w n = decide ((List.range n).countP (fun i => w.testBit i) % 2 = 1)
  | 0 => rfl
  | n + 1 => by
    rw [parity, parity_eq w n, List.range_succ, List.countP_append, List.countP_singleton]
    rcases Nat.mod_two_eq_zero_or_one ((List.range n).countP fun i => w.testBit i) with h | h <;> cases w.testBit n <;>
      simp [Nat.add_mod, h]

theorem parity_eq_false {w n : Nat} : parity w n = false ↔ (List.range n).countP (fun i => w.testBit i) % 2 = 0 := by
  rw [parity_eq, decide_eq_false_iff_not, Nat.mod_two_not_eq_one]

theorem parity_eq_true {w n : Nat} : parity w n = true ↔ ¬(List.range n).countP (fun i => w.testBit i) % 2 = 0 := by
  rw [← parity_eq_false, Bool.not_eq_false]

theorem laneGood_iff (w : Word) :
    laneGood w = true ↔ w.toNat.testBit 24 = true ∧ (List.range 26).countP (fun i => w.toNat.testBit i) % 2 = 0 := by
  rw [laneGood, Bool.and_eq_true, laneCheckOk, Bool.not_eq_true', parity_eq_false]
  exact Iff.rfl

theorem laneCheckError_iff (w : Word) :
    laneCheckError w = true ↔ w.toNat.testBit 24 = true ∧ ¬(List.range 26).countP (fun i => w.toNat.testBit i) % 2 = 0 := by
  rw [laneCheckError, Bool.and_eq_true, laneCheckOk, Bool.not_not, parity_eq_true]
  exact Iff.rfl

theorem laneSample_eq (w : Word) :
    laneSample w = (w.toNat % 2 ^ 24 : Nat) - (if w.toNat.testBit 23 then 2 ^ 24 else 0 : Int) := by
  have low : (w.extractLsb' 0 24).toNat = w.toNat % 2 ^ 24 := laneFrame_eq w
  rw [laneSample, BitVec.toInt_eq_toNat_cond, low, Nat.testBit_eq_decide_div_mod_eq]
  simp only [decide_eq_true_eq]
  split <;> split <;> omega

theorem slotForm_eq (w : Word) : slotForm w = w.toNat / 2 ^ 30 := by
  have bound := w.isLt
  rw [slotForm, BitVec.extractLsb'_toNat, Nat.shiftRight_eq_div_pow]
  omega

theorem slotPayload_eq (w : Word) : slotPayload w = BitVec.ofNat 28 w.toNat := by
  refine BitVec.eq_of_toNat_eq ?_
  rw [slotPayload, BitVec.extractLsb'_toNat, Nat.shiftRight_zero, BitVec.toNat_ofNat]

section
variable {w : Word}

theorem SlotWord.ofWord_empty (h : slotForm w = 0) : SlotWord.ofWord w = .empty := if_pos h

theorem SlotWord.ofWord_form3 (h : slotForm w = 3) : SlotWord.ofWord w = .corrupt := by
  rw [SlotWord.ofWord, h]
  rfl

theorem SlotWord.ofWord_wrong (h : slotForm w ≠ 0) (hc : slotCheckOk w = false) : SlotWord.ofWord w = .corrupt := by
  rw [SlotWord.ofWord, if_neg h, hc, Bool.not_false, Bool.or_true]
  rfl

theorem SlotWord.ofWord_start (h : slotForm w = 1) (hc : slotCheckOk w = true) : SlotWord.ofWord w = .start (slotPayload w) := by
  rw [SlotWord.ofWord, h, hc]
  rfl

theorem SlotWord.ofWord_data (h : slotForm w = 2) (hc : slotCheckOk w = true) : SlotWord.ofWord w = .data (slotPayload w) := by
  rw [SlotWord.ofWord, h, hc]
  rfl

theorem slotCheckOk_iff : slotCheckOk w = true ↔ (List.range 32).countP (fun i => w.toNat.testBit i) % 2 = 0 := by
  rw [slotCheckOk, Bool.not_eq_true', parity_eq_false]

end

/-! ### Used lanes (R34) -/

theorem SourceMap.names_iff (m : SourceMap) (l : Lane) :
    m.names l = true ↔ m.tc = some l ∨ ∃ c : Chan, m.prog[c] = some l := by
  simp only [SourceMap.names, Bool.or_eq_true, decide_eq_true_eq, List.any_eq_true, List.mem_finRange, true_and]

theorem State.usedBut_iff (s : State) (later : List Room) (l : Lane) : s.usedBut later l = true ↔ ∃ r : Room, r ∉ later ∧
    ((s.room r).activeMap.tc = some l ∨ ∃ c : Chan, (s.room r).activeMap.prog[c] = some l) := by
  simp only [State.usedBut, List.any_eq_true, List.mem_finRange, true_and, Bool.and_eq_true, decide_eq_true_eq, SourceMap.names_iff]

theorem State.usesLane_iff (s : State) (l : Lane) : s.usesLane l = true ↔
    ∃ r : Room, (s.room r).activeMap.tc = some l ∨ ∃ c : Chan, (s.room r).activeMap.prog[c] = some l := by
  rw [State.usesLane, State.usedBut_iff]
  simp

/-! ### A room that reads its words later in the period (R34, R35, R41) -/

theorem LaneRec.readLater_good {rec : LaneRec} {w : Word} (h : laneGood w = true ∨ rec.concealed = true) : rec.readLater w = rec :=
  if_pos (Bool.or_eq_true_iff.2 h)

theorem LaneRec.readLater_conceals {rec : LaneRec} {w : Word} (h : laneGood w = false) (hc : rec.concealed = false) :
    rec.readLater w = { rec with usedErr := rec.usedErr + 1, concealed := true } := by
  rw [LaneRec.readLater, h, hc]
  rfl

theorem LaneRec.readLater_hold (rec : LaneRec) (w : Word) : (rec.readLater w).hold = rec.hold := by
  unfold LaneRec.readLater
  split <;> rfl

/-- The lanes after a room's reading of its words: those that its active map names take theirs (R34). -/
def State.readLanes (s : State) (r : Room) : Vector LaneRec 256 :=
  Vector.ofFn fun l => if (s.room r).activeMap.names l then s.lanes[l].readLater s.words[l] else s.lanes[l]

/-- The part with a room's words of the period's frame read, ahead of its timecode (R34, R35). -/
def State.withWords (s : State) (r : Room) : State :=
  ({ s with waiting := s.waiting.filter fun q => decide (q ≠ r), lanes := s.readLanes r } : State).takeValues s.words fun q => decide (q = r)

section
variable {s : State} {r : Room}

theorem State.readLanes_get (s : State) (r : Room) (l : Lane) :
    (s.readLanes r)[l] = if (s.room r).activeMap.names l then s.lanes[l].readLater s.words[l] else s.lanes[l] := by
  rw [State.readLanes]
  simp only [Fin.getElem_fin, Vector.getElem_ofFn]

theorem State.readLanes_hold (s : State) (r : Room) (l : Lane) : (s.readLanes r)[l].hold = s.lanes[l].hold := by
  rw [State.readLanes_get]
  split
  · exact LaneRec.readLater_hold _ _
  · rfl

/-- The value of a channel depends on the lanes' hold values alone (R35). -/
theorem State.laneValue_congr {t : State} (h : ∀ l : Lane, t.lanes[l].hold = s.lanes[l].hold) (ws : Vector Word 256) (o : Option Lane) :
    t.laneValue ws o = s.laneValue ws o := by
  cases o with
  | none => rfl
  | some l => rw [State.laneValue, State.laneValue, h]

theorem State.withWords_lanes (s : State) (r : Room) : (s.withWords r).lanes = s.readLanes r := rfl

theorem State.room_withWords_ne {q : Room} (h : q ≠ r) : (s.withWords r).room q = s.room q := by
  rw [State.withWords, State.room_takeValues, if_neg (by simpa using h)]
  generalize s.readLanes r = lanes
  rfl

theorem State.room_withWords_self (s : State) (r : Room) : (s.withWords r).room r = { s.room r with
    prog := Vector.ofFn fun c => s.laneValue s.words (s.room r).activeMap.prog[c] } := by
  rw [State.withWords, State.room_takeValues, if_pos (by simp)]
  have holds := State.readLanes_hold s r
  generalize s.readLanes r = lanes at holds ⊢
  simp only [State.laneValue_congr (s := s) (t := { s with waiting := s.waiting.filter fun q => decide (q ≠ r), lanes := lanes }) holds]
  rfl

theorem State.prog_withWords (s : State) (r : Room) (c : Chan) :
    ((s.withWords r).room r).prog[c] = s.laneValue s.words (s.room r).activeMap.prog[c] := by
  rw [State.room_withWords_self]
  simp only [Fin.getElem_fin, Vector.getElem_ofFn]

theorem State.timecodeValue_withWords (s : State) (r : Room) (ws : Vector Word 256) :
    (s.withWords r).timecodeValue ws r = s.timecodeValue ws r := by
  unfold State.timecodeValue
  rw [State.room_withWords_self]
  rfl

theorem State.readWords_of_waiting (h : r ∈ s.waiting) :
    s.readWords r = (s.withWords r).takeOnce r (s.timecodeValue s.words r) := by
  rw [← State.timecodeValue_withWords]
  unfold State.readWords State.withWords
  rw [if_pos h, State.readLanes]

end

/-! ### The lanes and the values of a frame (R32 to R36) -/

/-- The lanes after a frame's words (R32 to R34, R36). -/
def State.takenLanes (o : State) (ws : Vector Word 256) (later : List Room) : Vector LaneRec 256 :=
  Vector.ofFn fun l => o.lanes[l].take (o.usedBut later l) ws[l]

/-- The part with a frame's words in its lanes and in the channels of the rooms that read them now, ahead of the timecode (R31). -/
def State.valued (o : State) (ws : Vector Word 256) (later : List Room) : State :=
  { o with
    lanes := o.takenLanes ws later
    checkTotal := o.checkTotal + BitVec.ofNat 32 (checkErrors ws)
    rooms := Vector.ofFn fun r => if r ∈ later then o.room r else { o.room r with
      prog := Vector.ofFn fun c => o.laneValue ws (o.room r).activeMap.prog[c] }
    waiting := later
    words := ws }

section
variable {s o : State} {ws : Vector Word 256} {later : List Room} {r : Room}

theorem State.takenLanes_get (o : State) (ws : Vector Word 256) (later : List Room) (l : Lane) :
    (o.takenLanes ws later)[l] = o.lanes[l].take (o.usedBut later l) ws[l] := by
  rw [State.takenLanes]
  simp only [Fin.getElem_fin, Vector.getElem_ofFn]

/-- The hold value of a lane after the frame is the value of a channel mapped to it (R35, R36). -/
theorem State.laneValue_takenLanes (h : s.lanes = o.takenLanes ws later) (m : Option Lane) : s.laneValue ws m = o.laneValue ws m := by
  cases m with
  | none => rfl
  | some l =>
    rw [State.laneValue, State.laneValue, h, State.takenLanes_get, LaneRec.take]
    split <;> rfl

theorem State.room_valued (o : State) (ws : Vector Word 256) (later : List Room) (r : Room) : (o.valued ws later).room r =
    if r ∈ later then o.room r else { o.room r with prog := Vector.ofFn fun c => o.laneValue ws (o.room r).activeMap.prog[c] } := by
  delta State.valued
  generalize o.takenLanes ws later = lanes
  simp only [State.room, Fin.getElem_fin, Vector.getElem_ofFn]

theorem State.prog_valued (o : State) (ws : Vector Word 256) (later : List Room) (r : Room) (c : Chan) : ((o.valued ws later).room r).prog[c] =
    if r ∈ later then (o.room r).prog[c] else o.laneValue ws (o.room r).activeMap.prog[c] := by
  rw [State.room_valued]
  split
  · rfl
  · simp only [Fin.getElem_fin, Vector.getElem_ofFn]

theorem State.takeLanes_eq (o : State) (ws : Vector Word 256) (later : List Room) : o.takeLanes ws later =
    { o with lanes := o.takenLanes ws later, checkTotal := o.checkTotal + BitVec.ofNat 32 (checkErrors ws) } := by
  delta State.takeLanes State.takenLanes
  rfl

/-- The lanes take their words, and then the rooms that read now their values. -/
theorem State.takeValues_takeLanes (o : State) (ws : Vector Word 256) (later : List Room) :
    { (o.takeLanes ws later).takeValues ws (fun r => decide (r ∉ later)) with waiting := later, words := ws } = o.valued ws later := by
  have values (m : Option Lane) : (o.takeLanes ws later).laneValue ws m = o.laneValue ws m :=
    State.laneValue_takenLanes (o := o) (later := later) (by rw [State.takeLanes_eq]) m
  unfold State.takeValues State.valued
  simp only [values]
  rw [State.takeLanes_eq]
  generalize o.takenLanes ws later = lanes
  simp only [decide_not, Bool.not_eq_true', decide_eq_false_iff_not, ite_not]
  rfl

/-- A frame: the waiting rooms read first, then the lanes and the values, then the timecode room by room (R31, R49). -/
theorem State.intake_eq (s : State) (ws : Vector Word 256) (order : FrameOrder) : s.intake ws order =
    forRooms order.rooms (fun r s => if r ∈ order.later then s else s.takeOnce r (s.timecodeValue ws r))
      (s.takeWaiting.valued ws order.later) :=
  congrArg (forRooms order.rooms fun r s => if r ∈ order.later then s else s.takeOnce r (s.timecodeValue ws r))
    (s.takeWaiting.takeValues_takeLanes ws order.later)

/-- Past the lanes and the values a frame moves what the Cue Engine can touch, and no channel's value. -/
theorem State.Cued.intake (s : State) (ws : Vector Word 256) (order : FrameOrder) :
    (s.takeWaiting.valued ws order.later).Cued (s.intake ws order) := by
  rw [State.intake_eq]
  refine forRooms_keeps (.refl _) fun r u hu => ?_
  split
  · exact hu
  · exact hu.trans (.takeOnce u r _)

theorem State.timecodeValue_eq_given (u : State) (ws : Vector Word 256) (r : Room) : u.timecodeValue ws r =
    match (u.room r).activeMap.tc with
    | some l => if laneGood ws[l] then some (ws[l].toNat % 16777216) else none
    | none => none := by
  unfold State.timecodeValue
  simp only [laneFrame_eq] <;> rfl

/-- The value of a programme channel of a frame (R35). -/
theorem State.laneValue_eq (s : State) (ws : Vector Word 256) (m : Option Lane) : s.laneValue ws m = match m with
    | none => 0
    | some l => if laneGood ws[l] then laneSample ws[l] else s.lanes[l].hold := by
  cases m <;> rfl

/-- The state ahead of the timecode, with the values taken from the lanes after the frame (R35, R36). -/
theorem State.valued_of_lanes {lanes : Vector LaneRec 256} (h : lanes = o.takenLanes ws later) :
    ({ o with
      lanes := lanes
      checkTotal := o.checkTotal + BitVec.ofNat 32 (checkErrors ws)
      rooms := Vector.ofFn fun r => if r ∈ later then o.room r else { o.room r with
        prog := Vector.ofFn fun c =>
          match (o.room r).activeMap.prog[c] with
          | none => 0
          | some l => lanes[l].hold }
      waiting := later
      words := ws } : State) = o.valued ws later := by
  have value (m : Option Lane) : (match m with
      | none => 0
      | some l => lanes[l].hold) = o.laneValue ws m := by
    cases m with
    | none => rfl
    | some l =>
      show lanes[l].hold = _
      rw [h, State.takenLanes_get]
      rfl
  rw [State.valued]
  simp only [value, ← h]

/-! ### A frame while every timecode is ABSENT -/

/-- Nothing differs between `s` and `t` but which rooms have had their timecode of the period. -/
structure State.TakenOnly (s t : State) : Prop where
  frame : t = { s with rooms := t.rooms }
  room : ∀ q, t.room q = { s.room q with tc := { (s.room q).tc with taken := (t.room q).tc.taken } }

theorem State.TakenOnly.takeOnce {t : State} (h : s.TakenOnly t) (absent : (s.room r).tc.state = .absent) (v : Option Nat) :
    s.TakenOnly (t.takeOnce r v) := by
  have still : (t.room r).tc.state = .absent := by
    rw [h.room r]
    exact absent
  unfold State.takeOnce State.takeOfPeriod
  rw [State.takeTimecode_absent still]
  split
  · exact h
  · refine ⟨?_, fun q => ?_⟩
    · rw [h.frame]
      rfl
    · by_cases e : q = r
      · subst e
        rw [State.room_modRoom_self, h.room q]
      · rw [State.room_modRoom_ne _ _ e, ← h.room q]

theorem State.TakenOnly.intake (s : State) (ws : Vector Word 256) (order : FrameOrder)
    (absent : ∀ r : Room, (s.takeWaiting.room r).tc.state = .absent) : (s.takeWaiting.valued ws order.later).TakenOnly (s.intake ws order) := by
  rw [State.intake_eq]
  refine forRooms_keeps ⟨rfl, fun _ => rfl⟩ fun r u hu => ?_
  have gone : ((s.takeWaiting.valued ws order.later).room r).tc.state = .absent := by
    rw [State.room_valued]
    split <;> exact absent r
  split
  · exact hu
  · exact hu.takeOnce gone _

/-- Such a frame changes the lanes, the counter and the rooms, and of a room its values and the mark (R31). -/
theorem State.TakenOnly.of_valued {t : State} (h : (o.valued ws later).TakenOnly t) :
    t = { o with lanes := t.lanes, checkTotal := t.checkTotal, rooms := t.rooms, waiting := later, words := ws } ∧
    ∀ q, t.room q = { o.room q with prog := (t.room q).prog, tc := { (o.room q).tc with taken := (t.room q).tc.taken } } := by
  obtain ⟨frame, room⟩ := h
  refine ⟨?_, fun q => ?_⟩
  · unfold State.valued at frame
    generalize o.takenLanes ws later = lanes at frame
    generalize t.rooms = rooms at frame
    subst frame
    rfl
  · have same := room q
    rw [State.room_valued] at same
    generalize (t.room q).tc.taken = b at same
    rw [same]
    split <;> rfl

/-! ### The slots of a frame (R31, R187) -/

theorem State.takeSlots_eq (s : State) (slots : Vector Word 4) : s.takeSlots slots =
    (((s.takeWord (.ofWord slots[0])).takeWord (.ofWord slots[1])).takeWord (.ofWord slots[2])).takeWord (.ofWord slots[3]) := rfl

theorem State.takeWord_empty_of_idle (h : s.mgmt.asm.stage = .idle) : s.takeWord .empty = s := State.breakAssembly_of_idle h

theorem State.takeSlots_of_empty {slots : Vector Word 4} (h : s.mgmt.asm.stage = .idle) (he : ∀ i : Fin 4, slotForm slots[i] = 0) :
    s.takeSlots slots = s :=
  List.foldlRecOn (motive := fun u : State => u = s) _ _ rfl fun u hu i _ => by
    rw [hu, SlotWord.ofWord_empty (he i), State.takeWord_empty_of_idle h]

end

/-! ### Frames, given and missing (O12) -/

section
variable {s : State}

/-- The assembly and its counter are as the frame found them. -/
theorem State.assembly_intake (s : State) (ws : Vector Word 256) (order : FrameOrder) :
    (s.openPeriod.intake ws order).mgmt.asm = s.mgmt.asm ∧ (s.openPeriod.intake ws order).mgmt.malformed = s.mgmt.malformed := by
  obtain ⟨_, _, _, asm, malformed, _⟩ := ((Moves.openPeriod s).trans (Moves.intake s.openPeriod ws order)).says.queue
  exact ⟨asm, malformed⟩

theorem missingWords_get (l : Lane) : missingWords[l] = 0#32 := by
  rw [missingWords, Fin.getElem_fin, Vector.getElem_replicate]

theorem checkErrors_missingWords : checkErrors missingWords = 0 := by
  rw [checkErrors, List.countP_eq_zero]
  intro l _
  rw [missingWords_get]
  decide

/-- A lane without a word (R31). -/
theorem LaneRec.take_zero (rec : LaneRec) (used : Bool) : rec.take used 0#32 =
    { rec with usedErr := if used then rec.usedErr + 1 else rec.usedErr, concealed := used } := by
  simp only [LaneRec.take, show laneGood 0#32 = false from by decide, show laneCheckError 0#32 = false from by decide, Bool.or_false,
    Bool.not_false, Bool.and_true, Bool.false_eq_true, if_false]

theorem State.laneValue_missing (s : State) (m : Option Lane) : s.laneValue missingWords m = match m with
    | none => 0
    | some l => s.lanes[l].hold := by
  cases m with
  | none => rfl
  | some l => rw [State.laneValue, missingWords_get, show laneGood 0#32 = false from by decide, if_neg Bool.false_ne_true]

/-- A missing frame breaks the assembly in progress, as an EMPTY word does (R31, R187). -/
theorem exec_missingFeedFrame (s : State) (order : FrameOrder) :
    exec (.missingFeedFrame order) s = .next (s.openPeriod.intake missingWords order).breakAssembly := rfl

theorem exec_feedTrunkFrame (s : State) (ws : Vector Word 256) (slots : Vector Word 4) (order : FrameOrder) :
    exec (.feedTrunkFrame ws slots order) s = .next ((s.openPeriod.intake ws order).takeSlots slots) := rfl

theorem State.breakAssembly_cued {u : State} : u.breakAssembly.lanes = u.lanes ∧ u.breakAssembly.checkTotal = u.checkTotal ∧
    u.breakAssembly.waiting = u.waiting ∧ u.breakAssembly.rooms = u.rooms := by
  unfold State.breakAssembly
  split <;> exact ⟨rfl, rfl, rfl, rfl⟩

theorem State.breakAssembly_counts {u : State} : u.breakAssembly.mgmt.asm.stage = .idle ∧
    u.breakAssembly.mgmt.malformed = if u.mgmt.asm.stage = .idle then u.mgmt.malformed else u.mgmt.malformed + 1 := by
  unfold State.breakAssembly
  split
  · exact ⟨‹_›, rfl⟩
  · exact ⟨rfl, rfl⟩

/-- A frame's own effect on lanes, counters and channels, which the rooms' timecode leaves (R31 to R36). -/
theorem State.intake_effect (s : State) (ws : Vector Word 256) (order : FrameOrder) :
    (∀ l : Lane, (s.intake ws order).lanes[l] = (s.takeWaiting).lanes[l].take (s.takeWaiting.usedBut order.later l) ws[l]) ∧
    (s.intake ws order).checkTotal = s.takeWaiting.checkTotal + BitVec.ofNat 32 (checkErrors ws) ∧
    (s.intake ws order).waiting = order.later ∧ (s.intake ws order).words = ws ∧
    ∀ (r : Room) (c : Chan), ((s.intake ws order).room r).prog[c] =
      if r ∈ order.later then (s.takeWaiting.room r).prog[c]
      else s.takeWaiting.laneValue ws (s.takeWaiting.room r).activeMap.prog[c] := by
  have cued := State.Cued.intake s ws order
  refine ⟨fun l => ?_, ?_, ?_, ?_, fun r c => ?_⟩
  · rw [cued.frame]
    exact State.takenLanes_get _ _ _ _
  · rw [cued.frame]
    rfl
  · rw [cued.frame]
    rfl
  · rw [cued.frame]
    rfl
  · rw [cued.prog]
    exact State.prog_valued _ _ _ _ _

theorem feedTrunkFrame_taken (s : State) (ws : Vector Word 256) (slots : Vector Word 4) (order : FrameOrder)
    (he : ∀ i : Fin 4, slotForm slots[i] = 0) (hi : s.mgmt.asm.stage = .idle) :
    exec (.feedTrunkFrame ws slots order) s = .next (s.openPeriod.intake ws order) := by
  rw [exec_feedTrunkFrame, State.takeSlots_of_empty (by rw [(s.assembly_intake ws order).1, hi]) he]

/-- Settles O12: the lane and slot words bit by bit, the frame's lanes and values, and the timecode of each room. -/
theorem feedFramesTakeLanes : Obligations.FeedFramesTakeLanes := by
  refine ⟨fun s ws slots order he hi => ?_, fun s order => ?_, fun s order => rfl, fun s => rfl, fun s r => ?_, fun s ws order => ?_,
    fun s ws slots order => rfl, fun w => ?_, fun w => ?_, fun s ws l => ?_⟩
  · intro o
    obtain ⟨lanes, checks, waits, words, values⟩ := s.openPeriod.intake_effect ws order
    refine ⟨_, feedTrunkFrame_taken s ws slots order he hi, lanes, checks, waits, words, fun r c => ?_, fun absent => ?_⟩
    · exact (values r c).trans (congrArg (fun v : Int => if r ∈ order.later then (o.room r).prog[c] else v) (State.laneValue_eq _ _ _))
    · obtain ⟨frame, room⟩ := (State.TakenOnly.intake s.openPeriod ws order absent).of_valued
      exact ⟨frame, room⟩
  · intro o
    obtain ⟨lanes, checks, waits, _, values⟩ := s.openPeriod.intake_effect missingWords order
    obtain ⟨asm, malformed⟩ := s.assembly_intake missingWords order
    obtain ⟨brokenLanes, brokenChecks, brokenWaits, brokenRooms⟩ :=
      State.breakAssembly_cued (u := s.openPeriod.intake missingWords order)
    obtain ⟨idle, counted⟩ := State.breakAssembly_counts (u := s.openPeriod.intake missingWords order)
    refine ⟨_, exec_missingFeedFrame s order, fun l => ?_, ?_, brokenWaits.trans waits, fun r c => ?_, idle, ?_⟩
    · rw [brokenLanes, lanes, missingWords_get, LaneRec.take_zero]
    · rw [brokenChecks, checks, checkErrors_missingWords, BitVec.add_zero]
    · have same : (s.openPeriod.intake missingWords order).breakAssembly.room r = (s.openPeriod.intake missingWords order).room r :=
        congrArg (fun v : Vector RoomRec 12 => v[r]) brokenRooms
      rw [same, values]
      exact congrArg (fun v : Int => if r ∈ order.later then (o.room r).prog[c] else v) (State.laneValue_missing _ _)
    · rw [counted, asm, malformed]
  · refine ⟨fun h => if_neg h, fun h => ?_⟩
    intro used conceals
    have named (l : Lane) : (s.room r).activeMap.names l = true ↔ used l := SourceMap.names_iff _ l
    refine ⟨s.withWords r, ?_, rfl, fun l => ⟨fun h => ?_, fun h => ?_⟩, fun q hq => State.room_withWords_ne hq, ?_, fun c => ?_⟩
    · rw [State.readWords_of_waiting h, State.timecodeValue_eq_given]
      rfl
    · obtain ⟨use, bad, first⟩ := h
      rw [State.withWords_lanes, State.readLanes_get, if_pos ((named l).2 use), LaneRec.readLater_conceals bad first]
    · rw [State.withWords_lanes, State.readLanes_get]
      split
      · next use =>
        refine LaneRec.readLater_good (Decidable.or_iff_not_imp_left.2 fun bad => Bool.of_not_eq_false fun first => h ?_)
        exact ⟨(named l).1 use, Bool.eq_false_iff.2 bad, first⟩
      · rfl
    · rw [State.room_withWords_self]
    · exact (State.prog_withWords s r c).trans (State.laneValue_eq _ _ _)
  · intro o lanes valued
    have isLanes : lanes = o.takenLanes ws order.later := congrArg Vector.ofFn (funext fun l => rfl)
    have isValued : valued = o.valued ws order.later := State.valued_of_lanes isLanes
    rw [State.intake_eq, isValued]
    refine congrArg (fun f : State → Room → State => (visit order.rooms).foldl f (o.valued ws order.later)) (funext fun u => funext fun r => ?_)
    exact congrArg (fun v => if r ∈ order.later then u else u.takeOnce r v) (State.timecodeValue_eq_given u ws r)
  · intro form even payload
    have isForm : slotForm w = form := slotForm_eq w
    have isEven : slotCheckOk w = true ↔ even := slotCheckOk_iff
    have isPayload : slotPayload w = payload := slotPayload_eq w
    rw [← isPayload, ← isForm, ← isEven]
    refine ⟨SlotWord.ofWord_empty, SlotWord.ofWord_form3, SlotWord.ofWord_start, SlotWord.ofWord_data, fun h hc => ?_⟩
    exact SlotWord.ofWord_wrong (by omega) (Bool.eq_false_iff.2 hc)
  · exact ⟨laneGood_iff w, laneCheckError_iff w, laneSample_eq w⟩
  · exact ⟨rfl, fun later => State.usedBut_iff s later l, State.usesLane_iff s l⟩

end

end Sys2Proof.Machine
end

section
/-! The block end: what an evaluation can touch, and O40 (R117 to R120, R124 to R129). -/

namespace Sys2Proof.Machine

/-! ### What the judgements of one room touch -/

/-- Judgements of conditions of room `r`: besides the alarm list and the notices, the room's conditions and its unlisted count. -/
structure State.Judged (r : Room) (s t : State) : Prop where
  only : s.onlyRoom t r
  room : t.room r = { s.room r with
    conds := (t.room r).conds, rackCond := (t.room r).rackCond, unlisted := (t.room r).unlisted }

section
variable {r : Room} {s t u : State}

theorem State.Judged.refl (r : Room) (s : State) : s.Judged r s := ⟨⟨rfl, fun _ _ => rfl⟩, rfl⟩

theorem State.Judged.trans (h : s.Judged r t) (k : t.Judged r u) : s.Judged r u :=
  ⟨State.onlyRoom_trans h.only k.only, by rw [k.room, h.room]⟩

theorem State.Judged.raiseCond (s : State) (r : Room) (x : CondId) (p n : Nat) : s.Judged r (s.raiseCond r x p n) := by
  refine ⟨⟨State.onlyRooms_raiseCond s r x p n, fun q hq => ?_⟩, ?_⟩
  · rw [State.room_raiseCond, if_neg hq]
  · rw [State.room_raiseCond, if_pos rfl, RoomRec.putCond_frame]

theorem State.Judged.modRoom (s : State) (r : Room) (x : CondId) (c : Cond) : s.Judged r (s.modRoom r fun rm => rm.putCond x c) := by
  refine ⟨State.onlyRoom_modRoom s r _, ?_⟩
  rw [State.room_modRoom_self, RoomRec.putCond_frame]

theorem State.room_clearCond (s : State) (r : Room) (x : CondId) (q : Room) :
    (s.clearCond r x).room q = if q = r then (s.room r).putCond x .quiet else s.room q := by
  rw [← s.room_modRoom r q fun rm => rm.putCond x .quiet]
  rfl

theorem State.Judged.clearCond (s : State) (r : Room) (x : CondId) : s.Judged r (s.clearCond r x) := by
  refine ⟨⟨State.onlyRooms_clearCond s r x, fun q hq => ?_⟩, ?_⟩
  · rw [State.room_clearCond, if_neg hq]
  · rw [State.room_clearCond, if_pos rfl, RoomRec.putCond_frame]

theorem State.Judged.judge (r : Room) (x : CondId) (truth : Bool) (hold p n : Nat) (acc : State × List CondId) :
    acc.1.Judged r (State.judge r x truth hold p n acc).1 := by
  unfold State.judge
  dsimp only
  split
  · exact .raiseCond _ r x p n
  · split
    · exact .clearCond _ r x
    · exact .modRoom _ r x _

theorem State.Judged.judgeLevel (r : Room) (acc : State × List CondId) (x : Chan × LevelKind) :
    acc.1.Judged r (State.judgeLevel r acc x).1 := by
  unfold State.judgeLevel
  dsimp only
  split
  · exact .refl r _
  · exact .judge r _ _ _ _ _ _

/-- A judgement of the RACK condition leaves the channels' conditions. -/
theorem State.conds_judge_rack (r : Room) (truth : Bool) (hold p n : Nat) (acc : State × List CondId) :
    ((State.judge r .rack truth hold p n acc).1.room r).conds = (acc.1.room r).conds := by
  unfold State.judge
  dsimp only
  split
  · rw [State.room_raiseCond, if_pos rfl]
    rfl
  · split
    · rw [State.room_clearCond, if_pos rfl]
      rfl
    · rw [State.room_modRoom_self]
      rfl

/-! ### The evaluation of one room (R119, R120, R129) -/

/-- A room's record after its evaluation in `s`, among the rooms of `s` (R119, R120, R129). -/
structure State.EvaluatedTo (s : State) (r : Room) (x : RoomRec) : Prop where
  frame : x = { s.room r with
    meters := x.meters, lastEval := x.lastEval, mask := x.mask, conds := x.conds, rackCond := x.rackCond, unlisted := x.unlisted }
  counted : (s.room r).evaluated = true → x.lastEval = some s.blockNumber ∧ x.mask = (s.room r).mask.countDown ∧
    ∀ k : Chan, x.meters[k] = { (s.room r).meters[k] with
      lastP := (s.room r).meters[k].peak, lastC := (s.room r).meters[k].clips, lastLoss := s.lostOutput (s.room r) k }
  spared : (s.room r).evaluated = false → x.lastEval = (s.room r).lastEval ∧ x.mask = (s.room r).mask ∧ x.conds = (s.room r).conds ∧
    x.meters = (s.room r).meters

/-- The channels' judgements of an evaluated room, with the conditions raised (R126). -/
def State.levelled (s : State) (r : Room) : State × List CondId :=
  if (s.room r).evaluated then levelConds.foldl (State.judgeLevel r) (s.capture r, []) else (s, [])

/-- The channels' judgements and that of RACK (R126, R127). -/
def State.judged (s : State) (r : Room) : State × List CondId :=
  State.judge r .rack ((s.levelled r).1.room r).rackTrue 1 0 0 (s.levelled r)

/-- The room evaluated, ahead of the hand-over (R129). -/
def State.masked (s : State) (r : Room) : State :=
  if (s.room r).evaluated then (s.judged r).1.modRoom r fun rm => { rm with mask := rm.mask.countDown } else (s.judged r).1

theorem State.evaluate_eq (s : State) (r : Room) : s.evaluate r =
    if (s.judged r).2 = [] then s.masked r
    else { s.masked r with handovers := (s.masked r).handovers ++ [⟨r, (s.judged r).2⟩] } := rfl

theorem State.judgeLevels_judged (r : Room) (l : List (Chan × LevelKind)) (acc : State × List CondId) :
    acc.1.Judged r (l.foldl (State.judgeLevel r) acc).1 :=
  List.foldlRecOn (motive := fun out : State × List CondId => acc.1.Judged r out.1) _ _ (.refl r _) fun _ hout x _ =>
    hout.trans (.judgeLevel r _ x)

/-- The room as its judgements find it (R120). -/
theorem State.room_capture (s : State) (r : Room) : (s.capture r).room r = { s.room r with
    meters := Vector.ofFn fun k => { (s.room r).meters[k] with
      lastP := (s.room r).meters[k].peak, lastC := (s.room r).meters[k].clips, lastLoss := s.lostOutput (s.room r) k }
    lastEval := some s.blockNumber } := State.room_modRoom_self _ _ _

theorem State.masked_effect (s : State) (r : Room) : s.onlyRoom (s.masked r) r ∧ s.EvaluatedTo r ((s.masked r).room r) := by
  have judged : (s.levelled r).1.Judged r (s.judged r).1 := .judge r .rack _ 1 0 0 _
  have conds : ((s.judged r).1.room r).conds = ((s.levelled r).1.room r).conds := State.conds_judge_rack r _ 1 0 0 _
  cases ev : (s.room r).evaluated with
  | false =>
    have levelled : s.levelled r = (s, []) := by
      rw [State.levelled, ev]
      rfl
    have masked : s.masked r = (s.judged r).1 := by
      rw [State.masked, ev]
      rfl
    rw [levelled] at judged conds
    rw [masked]
    exact ⟨judged.only, by rw [judged.room], fun yes => absurd (ev.symm.trans yes) nofun,
      fun _ => ⟨by rw [judged.room], by rw [judged.room], conds, by rw [judged.room]⟩⟩
  | true =>
    have levelled : s.levelled r = levelConds.foldl (State.judgeLevel r) (s.capture r, []) := by
      rw [State.levelled, ev]
      rfl
    have masked : s.masked r = (s.judged r).1.modRoom r fun rm => { rm with mask := rm.mask.countDown } := by
      rw [State.masked, ev]
      rfl
    have all : (s.capture r).Judged r (s.judged r).1 := by
      refine .trans ?_ judged
      rw [levelled]
      exact State.judgeLevels_judged r levelConds (s.capture r, [])
    have room : (s.masked r).room r = { (s.judged r).1.room r with mask := ((s.judged r).1.room r).mask.countDown } := by
      rw [masked, State.room_modRoom_self]
    refine ⟨?_, ?_, fun _ => ?_, fun no => absurd (ev.symm.trans no) nofun⟩
    · rw [masked]
      exact State.onlyRoom_trans (State.onlyRoom_trans (State.onlyRoom_modRoom s r _) all.only) (State.onlyRoom_modRoom _ r _)
    · rw [room, all.room, State.room_capture]
    · rw [room, all.room, State.room_capture]
      refine ⟨rfl, rfl, fun k => ?_⟩
      simp only [Fin.getElem_fin, Vector.getElem_ofFn]

/-- Evaluations touch what a judgement touches, of the rooms evaluated, and the list of hand-overs. -/
theorem State.evaluate_effect (s : State) (r : Room) :
    ({ s with handovers := (s.evaluate r).handovers } : State).onlyRoom (s.evaluate r) r ∧ s.EvaluatedTo r ((s.evaluate r).room r) := by
  obtain ⟨⟨only, others⟩, evaluated⟩ := s.masked_effect r
  rw [State.evaluate_eq]
  generalize (s.judged r).2 = raised
  split
  · refine ⟨⟨?_, others⟩, evaluated⟩
    rw [only]
  · refine ⟨⟨?_, others⟩, evaluated⟩
    rw [only]

/-- An evaluation reads of the part the room's record, the lanes and the block number. -/
theorem State.EvaluatedTo.congr {x : RoomRec} (h : t.EvaluatedTo r x) (room : t.room r = s.room r) (lanes : t.lanes = s.lanes)
    (number : t.blockNumber = s.blockNumber) : s.EvaluatedTo r x := by
  obtain ⟨frame, counted, spared⟩ := h
  have lost (rm : RoomRec) (k : Chan) : t.lostOutput rm k = s.lostOutput rm k := by
    unfold State.lostOutput State.lostChannel
    rw [lanes]
  rw [room] at frame counted spared
  simp only [number, lost] at counted
  exact ⟨frame, counted, spared⟩

/-- The rooms evaluated one after another, each once (R126). -/
theorem State.evaluates_effect : ∀ (l : List Room) (s : State), l.Nodup →
    let t := l.foldl (fun u r => u.evaluate r) s
    ({ s with handovers := t.handovers } : State).onlyRooms t ∧ (∀ r ∈ l, s.EvaluatedTo r (t.room r)) ∧ ∀ r, r ∉ l → t.room r = s.room r
  | [], _, _ => ⟨rfl, nofun, fun _ _ => rfl⟩
  | r :: l, s, hn => by
    obtain ⟨new, rest⟩ := List.nodup_cons.1 hn
    obtain ⟨⟨only, others⟩, evaluated⟩ := s.evaluate_effect r
    obtain ⟨onlyRest, evaluatedRest, othersRest⟩ := State.evaluates_effect l (s.evaluate r) rest
    rw [List.foldl_cons]
    generalize l.foldl (fun u r => u.evaluate r) (s.evaluate r) = t at *
    refine ⟨?_, fun q hq => ?_, fun q hq => ?_⟩
    · rw [onlyRest, only]
    · rcases List.mem_cons.1 hq with e | hq
      · subst e
        rw [othersRest q new]
        exact evaluated
      · exact (evaluatedRest q hq).congr (others q fun e => new (e ▸ hq)) (by rw [only]) (by rw [only])
    · rw [othersRest q fun h => hq (List.mem_cons_of_mem _ h)]
      exact others q fun e => hq (e ▸ List.mem_cons_self)

end

end Sys2Proof.Machine
end

section
/-! The block end as a whole: O40 (R117 to R120, R124 to R129). -/

namespace Sys2Proof.Machine

section
variable {r : Room} {s t : State}

/-! ### The evaluation of a room in the words of the meters (R120, R124, R126) -/

/-- Two folds agree where their steps agree on all that the first one reaches. -/
theorem List.foldl_congr_of_keeps {α β : Type} {P : β → Prop} {f g : β → α → β} (hf : ∀ b a, P b → P (f b a))
    (hfg : ∀ b a, P b → f b a = g b a) : ∀ (l : List α) {b : β}, P b → l.foldl f b = l.foldl g b
  | [], _, _ => rfl
  | a :: l, b, hb => by
    rw [List.foldl_cons, List.foldl_cons, ← hfg b a hb]
    exact foldl_congr_of_keeps hf hfg l (hf b a hb)

/-- A condition's truth, by the block's P, C and LOSS (R124). -/
theorem AlarmCfg.truth_eq (a : AlarmCfg) (m : Meter) (x : LevelKind) : a.truth m x = match x with
    | .silence => a.armed.getLsbD 0 && decide (m.lastP < a.silenceFloor)
    | .over => a.armed.getLsbD 1 && decide (a.overLevel ≤ m.lastP)
    | .clip => a.armed.getLsbD 2 && decide (a.clipLimit ≤ m.lastC)
    | .loss => a.armed.getLsbD 3 && m.lastLoss := by
  cases x <;> rfl

theorem AlarmCfg.hold_eq (a : AlarmCfg) (x : LevelKind) : a.hold x = match x with
    | .silence => a.silenceHold
    | .over => a.overHold
    | .clip | .loss => 1 := by
  cases x <;> rfl

theorem Mask.holds_eq (m : Mask) (x : LevelKind) : m.holds x = (decide (0 < m.remaining) && m.kinds.getLsbD (match x with
    | .silence => 0 | .over => 1 | .clip => 2 | .loss => 3)) := by
  cases x <;> rfl

theorem RoomRec.evaluated_iff (rm : RoomRec) : rm.evaluated = true ↔
    (rm.path.state = .live ∨ rm.path.state = .parked) ∧ rm.path.enteredInBlock = false := by
  rw [RoomRec.evaluated, Bool.and_eq_true, RoomState.runs_iff, Bool.not_eq_true']

theorem RoomRec.evaluated_eq (rm : RoomRec) : rm.evaluated =
    (decide (rm.path.state = .live ∨ rm.path.state = .parked) && !rm.path.enteredInBlock) := by
  rw [Bool.eq_iff_iff, RoomRec.evaluated_iff, Bool.and_eq_true, decide_eq_true_iff, Bool.not_eq_true']

theorem Mask.countDown_remaining (m : Mask) : m.countDown.remaining = m.remaining - 1 := by
  unfold Mask.countDown
  split
  · show 0 = _
    omega
  · rfl

/-! ### The block end (R117, R118) -/

/-- The lanes without their marks (R36). -/
def State.unmarked (s : State) : Vector LaneRec 256 := Vector.ofFn fun l => { s.lanes[l] with mark := false }

theorem State.unmarked_get (s : State) (l : Lane) : s.unmarked[l] = { s.lanes[l] with mark := false } := by
  rw [State.unmarked]
  simp only [Fin.getElem_fin, Vector.getElem_ofFn]

/-- The rooms evaluated one after another in the order given (R126). -/
def State.evaluatedAll (s : State) (order : List Room) : State := (visit order).foldl (fun u r => u.evaluate r) s

theorem State.evaluatedAll_effect (s : State) (order : List Room) :
    ({ s with handovers := (s.evaluatedAll order).handovers } : State).onlyRooms (s.evaluatedAll order) ∧
    ∀ r, s.EvaluatedTo r ((s.evaluatedAll order).room r) := by
  obtain ⟨only, evaluated, _⟩ := State.evaluates_effect (visit order) s (nodup_visit order)
  exact ⟨only, fun r => evaluated r (mem_visit order r)⟩

theorem State.blockEnd_eq (s : State) (order : List Room) : s.blockEnd order =
    { (s.evaluatedAll order).mapRooms RoomRec.newBlock with
      lanes := s.unmarked, blockNumber := s.blockNumber + 1, blockPos := 0, blockEndDue := false } := by
  have only := (s.evaluatedAll_effect order).1
  have lanes : (s.evaluatedAll order).lanes = s.lanes := by rw [only]
  have number : (s.evaluatedAll order).blockNumber = s.blockNumber := by rw [only]
  have marks : (s.evaluatedAll order).unmarked = s.unmarked := by
    rw [State.unmarked, lanes, ← State.unmarked]
  rw [← marks, ← number]
  delta State.blockEnd State.unmarked
  rfl

theorem State.room_blockEnd (s : State) (order : List Room) (r : Room) :
    (s.blockEnd order).room r = ((s.evaluatedAll order).room r).newBlock := by
  rw [State.blockEnd_eq]
  generalize s.unmarked = lanes
  exact State.room_mapRooms _ _ _

theorem State.blockEnd_only (s : State) (order : List Room) :
    ({ s with
      blockNumber := s.blockNumber + 1, blockPos := 0, blockEndDue := false, lanes := (s.blockEnd order).lanes,
      handovers := (s.blockEnd order).handovers } : State).onlyRooms (s.blockEnd order) := by
  have only := (s.evaluatedAll_effect order).1
  rw [State.blockEnd_eq]
  generalize s.unmarked = lanes
  generalize s.evaluatedAll order = u at only
  rw [only]
  rfl

/-- A room over a block end (R117 to R120, R129). -/
theorem State.room_over_blockEnd (s : State) (order : List Room) (r : Room) :
    let x := (s.blockEnd order).room r
    x = { s.room r with
      path := { (s.room r).path with enteredInBlock := false }, meters := x.meters
      lastEval := x.lastEval, mask := x.mask, conds := x.conds, rackCond := x.rackCond, unlisted := x.unlisted } ∧
    ((s.room r).evaluated = true → x.lastEval = some s.blockNumber ∧ x.mask.remaining = (s.room r).mask.remaining - 1 ∧
      ∀ k : Chan, x.meters[k] =
        ⟨0, 0, (s.room r).meters[k].peak, (s.room r).meters[k].clips, s.lostOutput (s.room r) k⟩) ∧
    ((s.room r).evaluated = false → x.lastEval = (s.room r).lastEval ∧ x.mask = (s.room r).mask ∧ x.conds = (s.room r).conds ∧
      ∀ k : Chan, x.meters[k] = { (s.room r).meters[k] with peak := 0, clips := 0 }) := by
  intro x
  obtain ⟨frame, counted, spared⟩ := (s.evaluatedAll_effect order).2 r
  have isNew : x = ((s.evaluatedAll order).room r).newBlock := State.room_blockEnd s order r
  have meters (k : Chan) : x.meters[k] = ((s.evaluatedAll order).room r).meters[k].newBlock := by
    rw [isNew, RoomRec.newBlock]
    simp only [Fin.getElem_fin, Vector.getElem_ofFn]
  refine ⟨?_, fun yes => ?_, fun no => ?_⟩
  · rw [isNew, frame]
    rfl
  · obtain ⟨lastEval, mask, judged⟩ := counted yes
    refine ⟨?_, ?_, fun k => ?_⟩
    · rw [isNew]
      exact lastEval
    · rw [isNew, ← Mask.countDown_remaining, ← mask]
      rfl
    · rw [meters, judged, Meter.newBlock]
  · obtain ⟨lastEval, mask, conds, same⟩ := spared no
    refine ⟨?_, ?_, ?_, fun k => ?_⟩
    · rw [isNew]
      exact lastEval
    · rw [isNew]
      exact mask
    · rw [isNew]
      exact conds
    · rw [meters, same, Meter.newBlock]

theorem exec_meterBlockEnd (s : State) (order : List Room) : exec (.meterBlockEnd order) s = .next (s.takeBlockEnd order) := rfl

/-- METER_BLOCK_END in the last period of a block takes the meters of the chains that come ahead of it first (R117, R118). -/
theorem exec_meterBlockEnd_early (hd : s.blockEndDue = false) (hr : s.blockReady = true) (order : List Room) :
    exec (.meterBlockEnd order) s = .next
      { (s.meteredBy (s.takeValues s.words fun r => decide (r ∈ s.waiting))).blockEnd order with blockEnded := true } := by
  rw [exec_meterBlockEnd, State.takeBlockEnd, hd, hr]
  rfl

/-- Only the rooms that wait take their values (R35). -/
theorem State.prog_takeValues_waiting (s : State) (r : Room) :
    let x := (s.takeValues s.words fun r => decide (r ∈ s.waiting)).room r
    x = { s.room r with prog := x.prog } ∧ ∀ c : Chan, x.prog[c] =
      if r ∈ s.waiting then s.laneValue s.words (s.room r).activeMap.prog[c] else (s.room r).prog[c] := by
  intro x
  have isX : x = if decide (r ∈ s.waiting) then { s.room r with
      prog := Vector.ofFn fun c => s.laneValue s.words (s.room r).activeMap.prog[c] } else s.room r := State.room_takeValues _ _ _ _
  rw [isX]
  by_cases h : r ∈ s.waiting
  · simp only [h, decide_true, if_true]
    exact ⟨trivial, fun c => by simp only [Fin.getElem_fin, Vector.getElem_ofFn]⟩
  · simp only [h, decide_false, Bool.false_eq_true, if_false]
    exact ⟨trivial, fun _ => trivial⟩

/-- One channel condition of an evaluated room, whatever has been judged before it (R124, R126, R129). -/
theorem State.judgeLevel_captured {acc : State × List CondId} (h : (s.capture r).Judged r acc.1) (x : Chan × LevelKind) :
    State.judgeLevel r acc x = if (s.room r).mask.holds x.2 then acc else
      State.judge r (.level x.1 x.2)
        ((s.room r).alarmTable[x.1].truth { (s.room r).meters[x.1] with
          lastP := (s.room r).meters[x.1].peak, lastC := (s.room r).meters[x.1].clips, lastLoss := s.lostOutput (s.room r) x.1 } x.2)
        ((s.room r).alarmTable[x.1].hold x.2) (s.room r).meters[x.1].peak (s.room r).meters[x.1].clips acc := by
  have room := h.room
  rw [State.room_capture] at room
  unfold State.judgeLevel
  rw [room]
  simp only [Fin.getElem_fin, Vector.getElem_ofFn]

theorem State.judged_eq (s : State) (r : Room) : s.judged r =
    State.judge r .rack (decide ((s.room r).path.state = .halted ∧ (s.room r).path.halt = .rackLost)) 1 0 0 (s.levelled r) := by
  have path : ((s.levelled r).1.room r).path = (s.room r).path := by
    unfold State.levelled
    split
    · rw [(State.judgeLevels_judged r levelConds (s.capture r, [])).room, State.room_capture]
    · rfl
  rw [State.judged, RoomRec.rackTrue, path]

/-- The room evaluated, in any words for what its judgements ask (R119, R120, R124 to R127, R129, R134). -/
theorem State.evaluate_spelled (s : State) (r : Room) {ev : Bool} {held : LevelKind → Bool} {truth : Chan → LevelKind → Bool}
    {hold : Chan → LevelKind → Nat} {captured : State} {pairs : List (Chan × LevelKind)} {count : RoomRec → RoomRec}
    (isEv : (s.room r).evaluated = ev) (isHeld : ∀ x, (s.room r).mask.holds x = held x)
    (isTruth : ∀ k x, (s.room r).alarmTable[k].truth { (s.room r).meters[k] with
      lastP := (s.room r).meters[k].peak, lastC := (s.room r).meters[k].clips, lastLoss := s.lostOutput (s.room r) k } x = truth k x)
    (isHold : ∀ k x, (s.room r).alarmTable[k].hold x = hold k x) (isCaptured : s.capture r = captured) (isPairs : levelConds = pairs)
    (isCount : ∀ rm : RoomRec, { rm with mask := rm.mask.countDown } = count rm) :
    let levels := if ev then pairs.foldl (fun acc x => if held x.2 then acc else
        State.judge r (.level x.1 x.2) (truth x.1 x.2) (hold x.1 x.2) (s.room r).meters[x.1].peak (s.room r).meters[x.1].clips acc)
        (captured, [])
      else (s, [])
    let out := State.judge r .rack (decide ((s.room r).path.state = .halted ∧ (s.room r).path.halt = .rackLost)) 1 0 0 levels
    let u : State := if ev then out.1.modRoom r count else out.1
    s.evaluate r = if out.2 = [] then u else { u with handovers := u.handovers ++ [⟨r, out.2⟩] } := by
  intro levels out u
  have isLevels : s.levelled r = levels := by
    rw [State.levelled, isEv, isPairs, isCaptured]
    refine congrArg (fun l => if ev = true then l else (s, [])) (List.foldl_congr_of_keeps (P := fun acc => captured.Judged r acc.1)
      (fun acc x h => h.trans (.judgeLevel r acc x)) (fun acc x h => ?_) pairs (.refl r _))
    rw [State.judgeLevel_captured (isCaptured ▸ h), isHeld, isTruth, isHold]
  have isOut : s.judged r = out := by rw [State.judged_eq, isLevels]
  have isU : s.masked r = u := by
    rw [State.masked, isEv, isOut]
    simp only [isCount]
    rfl
  rw [State.evaluate_eq, isOut, isU]

end

/-- Settles O40: the block end as a whole, its two times, and the evaluation of one room. -/
theorem blockEndTaken : Obligations.BlockEndTaken := by
  refine ⟨fun s order => ?_, fun s order => ?_, fun s r => ?_⟩
  · intro t
    refine ⟨fun due => ?_, fun later opened pos ready => ?_, s.blockEnd_only order, fun l => ?_, fun r => ?_⟩
    · rw [exec_meterBlockEnd, State.takeBlockEnd, if_pos due]
    · have isReady : s.blockReady = true := by
        refine State.blockReady_iff.2 ⟨opened, pos, fun q hq => ?_⟩
        obtain ⟨ahead, free⟩ := ready q hq
        refine ⟨ahead, fun due => ?_⟩
        obtain ⟨slot, bottom | ⟨⟨x, hx, last⟩, phase⟩⟩ := (RoomRec.formatDue_iff _).1 due <;>
          obtain free | ⟨still, short⟩ := free
        · exact slot free
        · exact still.elim (fun h => h bottom.1) fun h => by omega
        · exact slot free
        · exact short.elim phase fun h => by
            have := h x hx
            omega
      refine ⟨_, exec_meterBlockEnd_early later isReady order, rfl, fun r => ?_⟩
      obtain ⟨frame, prog⟩ := s.prog_takeValues_waiting r
      refine ⟨frame, fun c => (prog c).trans ?_⟩
      exact congrArg (fun v : Int => if r ∈ s.waiting then v else (s.room r).prog[c]) (State.laneValue_eq _ _ _)
    · rw [show t = _ from State.blockEnd_eq s order]
      exact State.unmarked_get s l
    · intro lost ev
      obtain ⟨frame, counted, spared⟩ := s.room_over_blockEnd order r
      refine ⟨frame, fun yes => ?_, fun no => ?_⟩
      · exact counted ((RoomRec.evaluated_iff _).2 yes)
      · exact spared (Bool.eq_false_iff.2 fun yes => no ((RoomRec.evaluated_iff _).1 yes))
  · intro t u
    have part : t.alarms = u.alarms ∧ t.handovers = u.handovers ∧ t.mgmt = u.mgmt := by
      rw [show t = _ from s.blockEnd_eq order]
      exact ⟨rfl, rfl, rfl⟩
    obtain ⟨alarms, handovers, mgmt⟩ := part
    refine ⟨visit_perm order, alarms, handovers, mgmt, fun r => ?_⟩
    · rw [show t.room r = _ from s.room_blockEnd order r]
      exact ⟨rfl, rfl, rfl⟩
  · intro rm ev gone lost truth hold held captured pairs levels out u
    have isLost (k : Chan) : s.lostOutput (s.room r) k = lost k := rfl
    have isCaptured : s.capture r = captured := by
      refine State.modRoom_congr s r _ _ ?_
      exact congrArg (fun lost : Chan → Bool => { s.room r with
        meters := Vector.ofFn fun k => { (s.room r).meters[k] with
          lastP := (s.room r).meters[k].peak, lastC := (s.room r).meters[k].clips, lastLoss := lost k }
        lastEval := some s.blockNumber }) (funext isLost)
    exact s.evaluate_spelled r (RoomRec.evaluated_eq _) (Mask.holds_eq _) (fun k => AlarmCfg.truth_eq _ _) (fun k => AlarmCfg.hold_eq _)
      isCaptured rfl fun _ => rfl

end Sys2Proof.Machine
end

section
/-! What the events of a sample period can touch, and what opening one leaves (R1, R41, R53). -/

namespace Sys2Proof.Machine

/-- The events of a period besides the contact lines: of the part outside the rooms they touch the alarm list, the hand-overs, the contact
outputs, the Management Unit, the store, a restart, and the words still to be read; a lane only counts concealment, and only while
rooms have words to read. -/
structure State.Evented (s t : State) : Prop where
  frame : t = { s with
    rooms := t.rooms, lanes := t.lanes, alarms := t.alarms, handovers := t.handovers, outputs := t.outputs, mgmt := t.mgmt
    store := t.store, restart := t.restart, waiting := t.waiting }
  lanes : ∀ l : Lane, t.lanes[l] = { s.lanes[l] with usedErr := t.lanes[l].usedErr, concealed := t.lanes[l].concealed }
  still : s.waiting = [] → t.lanes = s.lanes ∧ t.waiting = []

section
variable {s t u : State}

theorem State.Evented.refl (s : State) : s.Evented s := ⟨rfl, fun _ => rfl, fun h => ⟨rfl, h⟩⟩

theorem State.Evented.trans (h : s.Evented t) (k : t.Evented u) : s.Evented u := by
  refine ⟨?_, fun l => ?_, fun w => ?_⟩
  · rw [k.frame, h.frame]
  · rw [k.lanes l, h.lanes l]
  · obtain ⟨lanes, waits⟩ := h.still w
    obtain ⟨lanes', waits'⟩ := k.still waits
    exact ⟨lanes'.trans lanes, waits'⟩

/-- Whatever leaves lanes and waiting rooms alone. -/
theorem State.Evented.of_frame (h : t = { s with
    rooms := t.rooms, alarms := t.alarms, handovers := t.handovers, outputs := t.outputs, mgmt := t.mgmt, store := t.store
    restart := t.restart }) : s.Evented t := by
  have lanes : t.lanes = s.lanes := by rw [h]
  have waits : t.waiting = s.waiting := by rw [h]
  refine ⟨?_, fun l => by rw [lanes], fun w => ⟨lanes, waits.trans w⟩⟩
  rw [lanes, waits]
  exact h

theorem State.Cued.evented (h : s.Cued t) : s.Evented t := by
  refine .of_frame ?_
  rw [h.frame]

theorem State.Evented.of_onlyRooms (h : s.onlyRooms t) : s.Evented t := by
  refine .of_frame ?_
  rw [h]

/-- An event taken when it is due. -/
theorem State.Evented.force {due : State → Bool} {act : State → State} (h : s.Evented t) (act_evented : ∀ v : State, v.Evented (act v)) :
    s.Evented (t.force due act) := by
  unfold State.force
  split
  · exact h.trans (act_evented t)
  · exact h

theorem State.Evented.readWords (s : State) (r : Room) : s.Evented (s.readWords r) := by
  by_cases h : r ∈ s.waiting
  · rw [State.readWords_of_waiting h]
    refine .trans ⟨rfl, fun l => ?_, fun w => ?_⟩ (State.Cued.takeOnce _ r _).evented
    · rw [State.withWords_lanes, State.readLanes_get]
      unfold LaneRec.readLater
      split
      · split <;> rfl
      · rfl
    · rw [w] at h
      exact absurd h List.not_mem_nil
  · rw [show s.readWords r = s from if_neg h]
    exact .refl s

theorem State.Evented.readAll (s : State) (l : List Room) : s.Evented (s.readAll l) :=
  List.foldlRecOn (motive := fun u : State => s.Evented u) _ _ (.refl s) fun _ hu r _ => hu.trans (.readWords _ r)

theorem State.Evented.nextHandover (s : State) (r : Room) : s.Evented (s.nextHandover r) := by
  unfold State.nextHandover
  split
  · exact State.Evented.trans (t := { s with handovers := s.handovers.eraseP fun x => decide (x.room = r) }) (.of_frame rfl)
      (State.Cued.takeHandover _ _).evented
  · exact .refl s

theorem State.Evented.allHandovers (s : State) : s.Evented s.allHandovers :=
  List.foldlRecOn (motive := fun u : State => s.Evented u) _ _ (.refl s) fun _ hu x _ => hu.trans (.nextHandover _ x.room)

theorem State.Evented.modRoom (s : State) (r : Room) (f : RoomRec → RoomRec) : s.Evented (s.modRoom r f) :=
  .of_onlyRooms (s.onlyRooms_modRoom r f)

theorem State.Evented.storeEnd (s : State) : s.Evented s.storeEnd :=
  State.Evented.trans (t := { s with store := .ready }) (.of_frame rfl) (State.Cued.notifyPart _ _).evented

theorem State.Evented.restartEnd (s : State) : s.Evented s.restartEnd :=
  State.Evented.trans (t := { s with restart := none }) (.of_frame rfl) (State.Cued.notifyPart _ _).evented

theorem State.Evented.forceRoom (r : Room) (s : State) : s.Evented (State.forceRoom r s) := by
  have moved (f : RoomRec → RoomRec) (v : State) : v.Evented (v.modRoom r f) := .modRoom v r f
  have settled := (State.Evented.refl s).force (due := State.settlingDue r) (act := (·.settlingEnd r)) (moved _)
  have ramped := settled.force (due := State.rampDue r) (act := (·.rampEnd r)) fun v => (State.Cued.rampEnd v r).evented
  have faded := ramped.force (due := State.fadeDue r) (act := (·.fadeEnd r)) (moved _)
  have dipped := faded.force (due := State.bottomDue r) (act := (·.dipBottom r)) fun v => (State.Cued.dipBottom v r).evented
  have risen := dipped.force (due := State.ascentDue r) (act := (·.ascentEnd r)) (moved _)
  exact List.foldlRecOn (motive := fun u : State => s.Evented u) _ _ risen fun _ hu i _ =>
    hu.force fun v => (State.Cued.expire v r i).evented

/-- The events of a period ahead of its contact lines (R15, R25, R49, R61, R67, R167, R206, R208). -/
def State.eventsTaken (s : State) (order : List Room) : State :=
  ((forRooms order State.forceRoom s.takeWaiting).force State.storeDue State.storeEnd).force State.restartDue State.restartEnd

theorem State.takeEvents_lines (s : State) (lines : BitVec 16) (order : List Room) :
    s.takeEvents lines order = (s.eventsTaken order).sampleLines lines := rfl

theorem State.Evented.eventsTaken (s : State) (order : List Room) : s.Evented (s.eventsTaken order) := by
  have rooms : s.Evented (forRooms order State.forceRoom s.takeWaiting) :=
    forRooms_keeps (P := fun u => s.Evented u) (.readAll s _) fun r u hu => hu.trans (.forceRoom r u)
  exact (rooms.force .storeEnd).force .restartEnd

theorem State.Evented.putAhead (s : State) (rooms : List Room) : s.Evented (s.putAhead rooms) := .of_frame rfl

theorem State.Evented.meteredBy (s v : State) : s.Evented (s.meteredBy v) := .of_frame rfl

end

/-! ### A sample period opens (assumption 1) -/

/-- What neither an overdue event nor a step of the counts touches: the tables, the total, the contact inputs and the commands. -/
structure State.Opened (s t : State) : Prop where
  law : t.law = s.law
  profiles : t.profiles = s.profiles
  committedTotal : t.committedTotal = s.committedTotal
  pending : t.pending = s.pending
  inputs : t.inputs = s.inputs
  fresh : t.inputsFresh = s.inputsFresh

section
variable {s t u : State}

theorem State.Opened.refl (s : State) : s.Opened s := ⟨rfl, rfl, rfl, rfl, rfl, rfl⟩

theorem State.Opened.trans (h : s.Opened t) (k : t.Opened u) : s.Opened u :=
  ⟨k.law.trans h.law, k.profiles.trans h.profiles, k.committedTotal.trans h.committedTotal, k.pending.trans h.pending,
    k.inputs.trans h.inputs, k.fresh.trans h.fresh⟩

theorem State.Opened.of_onlyRooms (h : s.onlyRooms t) : s.Opened t := by
  constructor <;> rw [h]

theorem State.Evented.opened (h : s.Evented t) : s.Opened t := by
  constructor <;> rw [h.frame]

theorem State.onlyRooms_attemptTimeout (s : State) (r : Room) : s.onlyRooms (s.attemptTimeout r) := by
  unfold State.attemptTimeout
  split
  · unfold State.failAttempt
    split
    · exact State.onlyRooms_modRoom s r _
    · unfold State.channelDone State.endProof
      dsimp only
      split
      · exact State.onlyRooms_transit s r _ _
      · split
        · exact State.onlyRooms_modRoom s r _
        · exact State.onlyRooms_transit s r _ _
  · exact State.onlyRooms_refl s

theorem State.Opened.dueSupply (s : State) : s.Opened s.dueSupply := by
  unfold State.dueSupply
  split
  · obtain ⟨_, only, _⟩ := s.supplyActs_effect [] false
    exact .trans (t := { s with supply := true, supplyDue := false }) ⟨rfl, rfl, rfl, rfl, rfl, rfl⟩ (.of_onlyRooms only)
  · exact .refl s

theorem State.Opened.blockEnd (s : State) (order : List Room) : s.Opened (s.blockEnd order) := by
  have only := s.blockEnd_only order
  generalize (s.blockEnd order).lanes = lanes at only
  constructor <;> rw [only]

theorem State.Opened.overdue (s : State) : s.Opened s.overdue := by
  unfold State.overdue
  dsimp only
  have due := State.Opened.dueSupply s
  refine forRooms_keeps (P := fun u => s.Opened u) ?_ fun r u hu => hu.trans (.of_onlyRooms (u.onlyRooms_attemptTimeout r))
  split
  · exact due.trans (.blockEnd _ [])
  · exact due

theorem State.Opened.tick (s : State) : s.Opened s.tick := ⟨rfl, rfl, rfl, rfl, rfl, rfl⟩

theorem State.Opened.openPeriod (s : State) : s.Opened s.openPeriod := by
  unfold State.openPeriod
  split
  · exact .refl s
  · exact (State.Opened.overdue s).trans (.tick s.overdue)

end

/-! ### The contact lines of a period (R176, R177) -/

/-- A line's sample, and the edge it may make: besides the inputs, what the Cue Engine touches. -/
structure State.Lined (s t : State) : Prop where
  frame : t = { s with
    rooms := t.rooms, inputs := t.inputs, alarms := t.alarms, outputs := t.outputs, mgmt := t.mgmt }

/-- An input after a period's sample of its line (R176, R177). -/
def ContactIn.after (c : ContactIn) (fresh level : Bool) : ContactIn :=
  if c.sampled then { c with sampled := false }
  else if fresh then { c with stable := level, run := 0, line := level }
  else if c.completes level then c.flip else c.take level

section
variable {s t u : State}

theorem State.Lined.trans (h : s.Lined t) (k : t.Lined u) : s.Lined u := ⟨by rw [k.frame, h.frame]⟩

theorem State.Cued.lined (h : s.Cued t) : s.Lined t := ⟨by rw [h.frame]⟩

theorem State.Cued.inputs (h : s.Cued t) : t.inputs = s.inputs := by rw [h.frame]

theorem State.Cued.edge (s : State) (i : Fin 16) : (s.modInput i ContactIn.flip).Cued (s.edge i) := by
  unfold State.edge
  dsimp only
  have announced (v : State) (e : Edge) : v.Cued (v.announceEdge i e) := by
    unfold State.announceEdge
    split
    · exact .notify v _ _
    · exact .notifyPart v _
  split
  · exact (announced _ _).trans (.takeEdge _ _ i _)
  · exact announced _ _

theorem State.sample_effect (lines : BitVec 16) (s : State) (i : Fin 16) : s.Lined (State.sample lines s i) ∧
    (State.sample lines s i).inputs = s.inputs.set i.val (s.inputs[i].after s.inputsFresh (lines.getLsbD i.val)) i.isLt := by
  unfold State.sample ContactIn.after
  dsimp only
  split
  · exact ⟨⟨rfl⟩, rfl⟩
  · split
    · exact ⟨⟨rfl⟩, rfl⟩
    · split
      · exact ⟨State.Lined.trans (t := s.modInput i ContactIn.flip) ⟨rfl⟩ (State.Cued.edge s i).lined, (State.Cued.edge s i).inputs⟩
      · exact ⟨⟨rfl⟩, rfl⟩

theorem State.samples_effect (lines : BitVec 16) : ∀ (l : List (Fin 16)) (s : State), l.Nodup →
    s.Lined (l.foldl (State.sample lines) s) ∧ ∀ i : Fin 16, (l.foldl (State.sample lines) s).inputs[i] =
      if i ∈ l then s.inputs[i].after s.inputsFresh (lines.getLsbD i.val) else s.inputs[i]
  | [], s, _ => ⟨⟨rfl⟩, fun _ => rfl⟩
  | j :: l, s, hn => by
    obtain ⟨new, rest⟩ := List.nodup_cons.1 hn
    obtain ⟨first, set⟩ := State.sample_effect lines s j
    obtain ⟨later, inputs⟩ := State.samples_effect lines l (State.sample lines s j) rest
    have fresh : (State.sample lines s j).inputsFresh = s.inputsFresh := by rw [first.frame]
    have self : (State.sample lines s j).inputs[j] = s.inputs[j].after s.inputsFresh (lines.getLsbD j.val) := by
      rw [set]
      exact Vector.getElem_set_self _
    have other (i : Fin 16) (h : i ≠ j) : (State.sample lines s j).inputs[i] = s.inputs[i] := by
      rw [set]
      exact Vector.getElem_set_ne _ _ fun e => h (Fin.ext e.symm)
    refine ⟨first.trans later, fun i => ?_⟩
    rw [List.foldl_cons, inputs i, fresh]
    by_cases e : i = j
    · subst e
      rw [if_neg new, if_pos List.mem_cons_self, self]
    · rw [other i e]
      simp only [List.mem_cons, e, false_or]

/-- All sixteen lines sampled. -/
theorem State.sampleLines_effect (s : State) (lines : BitVec 16) :
    s.sampleLines lines = { s with
      rooms := (s.sampleLines lines).rooms, inputs := (s.sampleLines lines).inputs, alarms := (s.sampleLines lines).alarms
      outputs := (s.sampleLines lines).outputs, mgmt := (s.sampleLines lines).mgmt, inputsFresh := false } ∧
    ∀ i : Fin 16, (s.sampleLines lines).inputs[i] = s.inputs[i].after s.inputsFresh (lines.getLsbD i.val) := by
  obtain ⟨lined, inputs⟩ := State.samples_effect lines (List.finRange 16) s (List.nodup_finRange 16)
  unfold State.sampleLines
  generalize (List.finRange 16).foldl (State.sample lines) s = t at lined inputs ⊢
  refine ⟨?_, fun i => (inputs i).trans (if_pos (List.mem_finRange i))⟩
  rw [lined.frame]

end

end Sys2Proof.Machine
end

section
/-! Booth contacts: O48 (R176 to R184). -/

namespace Sys2Proof.Machine

section
variable {s : State} {i : Fin 16}

/-! ### One input (R177) -/

@[simp] theorem State.input_modInput_self (s : State) (i : Fin 16) (f : ContactIn → ContactIn) : (s.modInput i f).inputs[i] = f s.inputs[i] :=
  Vector.getElem_set_self _

theorem State.modInput_modInput (s : State) (i : Fin 16) (f g : ContactIn → ContactIn) :
    (s.modInput i f).modInput i g = s.modInput i fun c => g (f c) := by
  rw [State.modInput, State.input_modInput_self]
  simp only [State.modInput, Vector.set_set]

/-- An input after its sample, in the words of the spec (R176, R177). -/
theorem ContactIn.after_eq (c : ContactIn) (fresh level : Bool) : c.after fresh level =
    if c.sampled then { c with sampled := false }
    else if fresh then { c with stable := level, run := 0, line := level }
    else if level = c.stable then { c with run := 0, line := level }
    else if c.run + 1 < 960 then { c with run := c.run + 1, line := level }
    else { c with stable := level, run := 0, edges := c.edges + 1, line := level } := by
  unfold ContactIn.after ContactIn.completes ContactIn.take ContactIn.flip
  have bound : Config.contactDebounce ≤ c.run + 1 ↔ 960 ≤ c.run + 1 := Iff.rfl
  simp only [bound]
  by_cases same : level = c.stable
  · simp [same]
  · have flipped : (!c.stable) = level := by
      cases level <;> cases hc : c.stable <;> simp_all
    by_cases short : c.run + 1 < 960
    · simp [same, short, Nat.not_le.2 short]
    · simp [same, short, flipped, Nat.not_lt.1 short]

/-! ### An edge and its owner's cues (R157, R178) -/

theorem State.takeEdge_fires (h : s.cuesFire = true) (q : Room) (i : Fin 16) (e : Edge) : s.takeEdge q i e =
    ((s.room q).list.filter fun x => decide (x.trigger = .contact i e)).foldl (fun u x => (u.fire q x (.contact i e)).st) s :=
  (if_pos h).trans (State.fireAll_map s q _ _)

theorem State.takeEdge_waits (h : s.cuesFire = false) (q : Room) (i : Fin 16) (e : Edge) : s.takeEdge q i e = s :=
  if_neg (Bool.eq_false_iff.1 h)

theorem State.edge_unowned (h : s.inputs[i].owner = none) : s.edge i =
    (s.modInput i ContactIn.flip).notifyPart (.contactIn i (edgeTo (!s.inputs[i].stable)) none (s.inputs[i].edges + 1)) := by
  have owner : (s.modInput i ContactIn.flip).inputs[i].owner = none := by
    rw [State.input_modInput_self]
    exact h
  have edges : (s.modInput i ContactIn.flip).inputs[i].edges = s.inputs[i].edges + 1 := by
    rw [State.input_modInput_self]
    rfl
  have announced : (s.modInput i ContactIn.flip).announceEdge i (edgeTo (!s.inputs[i].stable)) =
      (s.modInput i ContactIn.flip).notifyPart (.contactIn i (edgeTo (!s.inputs[i].stable)) none (s.inputs[i].edges + 1)) := by
    rw [State.announceEdge, owner, edges]
  unfold State.edge
  dsimp only
  rw [announced]
  split
  · next q hq => exact absurd (owner.symm.trans hq) nofun
  · rfl

theorem State.edge_owned {q : Room} (h : s.inputs[i].owner = some q) : s.edge i =
    ((s.modInput i ContactIn.flip).notify q
      (.contactIn i (edgeTo (!s.inputs[i].stable)) (some q) (s.inputs[i].edges + 1))).takeEdge q i (edgeTo (!s.inputs[i].stable)) := by
  have owner : (s.modInput i ContactIn.flip).inputs[i].owner = some q := by
    rw [State.input_modInput_self]
    exact h
  have edges : (s.modInput i ContactIn.flip).inputs[i].edges = s.inputs[i].edges + 1 := by
    rw [State.input_modInput_self]
    rfl
  have announced : (s.modInput i ContactIn.flip).announceEdge i (edgeTo (!s.inputs[i].stable)) =
      (s.modInput i ContactIn.flip).notify q (.contactIn i (edgeTo (!s.inputs[i].stable)) (some q) (s.inputs[i].edges + 1)) := by
    rw [State.announceEdge, owner, edges]
  unfold State.edge
  dsimp only
  rw [announced]
  split
  · next p hp =>
    obtain rfl : q = p := Option.some.inj (owner.symm.trans hp)
    rfl
  · next hp => exact absurd (owner.symm.trans hp) nofun

/-- An edge in the words of the spec (R157, R172, R175, R177, R178). -/
theorem State.edge_eq (s : State) (i : Fin 16) {level : Bool} (hl : level ≠ s.inputs[i].stable) :
    let c := s.inputs[i]
    let e : Edge := if level then .rise else .fall
    let flipped : State := s.modInput i fun _ => { c with stable := level, run := 0, edges := c.edges + 1, line := level }
    s.edge i = match c.owner with
      | none => flipped.notifyPart (.contactIn i e none (c.edges + 1))
      | some q =>
        let told := flipped.notify q (.contactIn i e (some q) (c.edges + 1))
        if s.supply = false ∧ s.store = .ready ∧ s.restart = none then
          ((s.room q).list.filter fun x => decide (x.trigger = .contact i e)).foldl (fun v x => (v.fire q x (.contact i e)).st) told
        else told := by
  intro c e flipped
  have isLevel : (!s.inputs[i].stable) = level := by
    cases level <;> cases hc : s.inputs[i].stable <;> simp_all
  have isEdge : edgeTo (!s.inputs[i].stable) = e := by rw [isLevel, edgeTo]
  have isFlipped : s.modInput i ContactIn.flip = flipped := by
    show s.modInput i (fun c => c.flip) = _
    unfold ContactIn.flip State.modInput
    dsimp only
    rw [isLevel]
    rfl
  cases ho : c.owner with
  | none => rw [State.edge_unowned ho, isEdge, isFlipped]
  | some q =>
    rw [State.edge_owned ho, isEdge, isFlipped]
    by_cases fires : s.supply = false ∧ s.store = .ready ∧ s.restart = none
    · refine (State.takeEdge_fires ?_ q i e).trans (if_pos fires).symm
      exact s.cuesFire_iff.2 fires
    · refine (State.takeEdge_waits ?_ q i e).trans (if_neg fires).symm
      exact Bool.eq_false_iff.2 fun h => fires (s.cuesFire_iff.1 h)

/-- One line's sample in the words of the spec (R176, R177). -/
theorem State.sample_eq (lines : BitVec 16) (s : State) (i : Fin 16) : State.sample lines s i =
    if s.inputs[i].sampled then s.modInput i fun _ => { s.inputs[i] with sampled := false }
    else if s.inputsFresh then s.modInput i fun _ => { s.inputs[i] with stable := lines.getLsbD i.val, run := 0, line := lines.getLsbD i.val }
    else if lines.getLsbD i.val = s.inputs[i].stable then s.modInput i fun _ => { s.inputs[i] with run := 0, line := lines.getLsbD i.val }
    else if s.inputs[i].run + 1 < 960 then
      s.modInput i fun _ => { s.inputs[i] with run := s.inputs[i].run + 1, line := lines.getLsbD i.val }
    else s.edge i := by
  unfold State.sample ContactIn.completes
  dsimp only
  by_cases same : lines.getLsbD i.val = s.inputs[i].stable
  · simp only [same, ne_eq, not_true_eq_false, false_and, decide_false, Bool.false_eq_true, if_false, if_true]
    unfold State.modInput ContactIn.take
    simp only [if_true]
  · by_cases short : s.inputs[i].run + 1 < 960
    · have no : ¬Config.contactDebounce ≤ s.inputs[i].run + 1 := Nat.not_le.2 short
      simp only [same, short, no, ne_eq, not_false_eq_true, and_false, decide_false, Bool.false_eq_true, if_false, if_true]
      unfold State.modInput ContactIn.take
      simp only [same, if_false]
    · have yes : Config.contactDebounce ≤ s.inputs[i].run + 1 := Nat.not_lt.1 short
      simp only [same, short, yes, ne_eq, not_false_eq_true, and_self, decide_true, if_false, if_true]
      rfl

/-- The same with the edge spelled out (R157, R172, R175 to R178). -/
theorem State.sample_spelled (lines : BitVec 16) (u : State) (i : Fin 16) :
    let c := u.inputs[i]
    let level := lines.getLsbD i.val
    let e : Edge := if level then .rise else .fall
    let flipped : State := u.modInput i fun _ => { c with stable := level, run := 0, edges := c.edges + 1, line := level }
    State.sample lines u i =
      if c.sampled then u.modInput i fun _ => { c with sampled := false }
      else if u.inputsFresh then u.modInput i fun _ => { c with stable := level, run := 0, line := level }
      else if level = c.stable then u.modInput i fun _ => { c with run := 0, line := level }
      else if c.run + 1 < 960 then u.modInput i fun _ => { c with run := c.run + 1, line := level }
      else match c.owner with
        | none => flipped.notifyPart (.contactIn i e none (c.edges + 1))
        | some q =>
          let told := flipped.notify q (.contactIn i e (some q) (c.edges + 1))
          if u.supply = false ∧ u.store = .ready ∧ u.restart = none then
            ((u.room q).list.filter fun x => decide (x.trigger = .contact i e)).foldl (fun v x => (v.fire q x (.contact i e)).st) told
          else told := by
  intro c level e flipped
  rw [State.sample_eq]
  refine if_congr Iff.rfl rfl (if_congr Iff.rfl rfl ?_)
  by_cases same : level = c.stable
  · exact (if_pos same).trans (if_pos same).symm
  · refine (if_neg same).trans (Eq.trans ?_ (if_neg same).symm)
    exact if_congr Iff.rfl rfl (State.edge_eq u i same)

end

/-! ### The requests of the contacts (R180, R183) -/

section
variable {s t : State} {h : Header} {fs : List Fld}

theorem exec_setContactOwner {a b c : Payload} (hs : s.admitsTable h) (hq : s.reqSetOwner [a, b, c] = (t, .ok, pack fs)) :
    exec (.setContactOwner h [a, b, c]) s = .next (t.replied h .setContactOwner .ok fs) :=
  exec_of_tableWrite rfl hs rfl rfl rfl (by simp) hq

/-- An output's request is admitted at level 2 and the owner's guard (R183). -/
theorem State.admission_setContact {a b : Payload} {o : Fin 24} (hr : namesNone h) (hop : s.operational) (ho : a.toNat = o.val)
    (hl : h.level.toNat ≤ 2) (hg : ∀ w, s.outputs[o].owner = some w → h.level.toNat ≤ (s.room w).guard.val) :
    s.admission .setContact (messageOf h .setContact [a, b]) = none := by
  obtain ⟨hstore, hrestart, hsupply⟩ := hop
  refine State.admission_passes ?_ ⟨hstore, hrestart⟩ ?_ (.inl hsupply)
  · exact decide_eq_true hr
  · have named : below 24 (arg [a, b] 0) = some o := below_of_eq ho
    show (atMost h.level 2 && match (below 24 (arg [a, b] 0)).bind fun o => s.outputs[o].owner with
      | some owner => atMost h.level (s.room owner).guard.val
      | none => true) = true
    rw [named, Option.bind_some]
    refine Bool.and_eq_true_iff.2 ⟨decide_eq_true hl, ?_⟩
    split
    · next w hw => exact decide_eq_true (hg w hw)
    · rfl

theorem exec_setContact {a b : Payload} (hl : s.listening) (ha : s.admission .setContact (messageOf h .setContact [a, b]) = none)
    (hq : s.reqSetContact h.originator [a, b] = (t, .ok, pack fs)) :
    exec (.setContact h [a, b]) s = .next (t.replied h .setContact .ok fs) :=
  exec_of_message rfl hl rfl (by simp) ha hq

end

/-! ### A closing SAMPLE_PERIOD samples every line (R176) -/

section
variable {s : State}

/-- What the part is as the closing period takes its events: after the hand-overs, and after the block end where it comes first. -/
def State.settled (s : State) (lines : BitVec 16) (order : PeriodOrder) : State :=
  let s0 := (s.openPeriod.putAhead order.ahead).allHandovers
  if order.blockFirst = true ∧ s0.blockPos + 1 = Config.meterBlock then
    (s0.meteredBy (s0.takeEvents lines order.rooms)).endBlock order.rooms
  else s0

theorem exec_samplePeriod_closes {order : PeriodOrder} (h : order.closes = true) (lines : BitVec 16) :
    exec (.samplePeriod lines order) s = .next (((s.settled lines order).takeEvents lines order.rooms).runPeriod.closePeriod) := by
  show Host.Outcome.next (s.samplePeriod lines order) = _
  unfold State.samplePeriod State.endPeriod State.settled State.endBlockFirst
  dsimp only
  rw [h, if_pos rfl]
  split <;> rfl

theorem State.Opened.endBlock (s : State) (order : List Room) : s.Opened (s.endBlock order) :=
  (State.Opened.blockEnd s order).trans ⟨rfl, rfl, rfl, rfl, rfl, rfl⟩

theorem State.Opened.settled (s : State) (lines : BitVec 16) (order : PeriodOrder) : s.Opened (s.settled lines order) := by
  have handed := (State.Opened.openPeriod s).trans ((State.Evented.putAhead _ order.ahead).trans (.allHandovers _)).opened
  unfold State.settled
  dsimp only
  generalize (s.openPeriod.putAhead order.ahead).allHandovers = s0 at handed
  split
  · exact (handed.trans (State.Evented.meteredBy s0 _).opened).trans (.endBlock _ _)
  · exact handed

end

/-- The lines of a closing period, from a state that has had only other events since `s` (R176, R177). -/
theorem State.Opened.lines {s w : State} (h : s.Opened w) (lines : BitVec 16) (order : List Room) :
    (w.takeEvents lines order).runPeriod.closePeriod.inputsFresh = false ∧
    ∀ i : Fin 16, (w.takeEvents lines order).runPeriod.closePeriod.inputs[i] = s.inputs[i].after s.inputsFresh (lines.getLsbD i.val) := by
  have before := h.trans (State.Evented.eventsTaken w order).opened
  obtain ⟨frame, inputs⟩ := (w.eventsTaken order).sampleLines_effect lines
  rw [before.inputs, before.fresh] at inputs
  rw [State.takeEvents_lines]
  have fresh : ((w.eventsTaken order).sampleLines lines).inputsFresh = false := by rw [frame]
  generalize (w.eventsTaken order).sampleLines lines = u at inputs fresh
  exact ⟨fresh, inputs⟩

/-- CONTACT_EDGE in an open period (R177). -/
theorem exec_contactEdge {s : State} {i : Fin 16} (ho : s.periodOpen = true) (hr : s.inputs[i].run = 959) (hs : s.inputs[i].sampled = false)
    (hf : s.inputsFresh = false) : exec (.contactEdge i) s = .next ((s.edge i).modInput i fun c => { c with sampled := true }) := by
  have due : s.edgeDue i = true := State.edgeDue_iff.2 ⟨ho, congrArg (· + 1) hr, hs, hf⟩
  show Host.Outcome.next (s.takeDue (·.edgeDue i) (·.takeContactEdge i)) = _
  rw [State.takeDue_of_open ho, State.force, if_pos due]
  rfl

/-- Settles O48: the requests, an edge and its cues, the sixteen lines of a period, and the cue action. -/
theorem contactsAct : Obligations.ContactsAct := by
  refine ⟨fun s h a b c hl hop hn => ⟨fun new hlevel hnew => ⟨fun i ha hb => ?_, fun o ha hb => ?_⟩, fun o on ha hb hlevel hguard => ?_⟩,
    fun s i ho hr hs hf => ?_, fun s i _ due => exec_row_due (due := (·.edgeDue i)) (act := (·.takeContactEdge i)) (fun _ => rfl) due,
    fun s lines order hc => ?_, fun s lines => ?_, fun s r number o on => ⟨fun h => if_pos h, fun h => if_neg h⟩⟩
  · refine exec_setContactOwner ⟨hl, hop, hn, hlevel⟩ ?_
    have owner : belowOrNone 12 (arg [a, b, c] 2) = some new := hnew
    have kind : arg [a, b, c] 0 = 0 := ha
    have which : below 16 (arg [a, b, c] 1) = some i := below_of_eq hb
    unfold State.reqSetOwner
    rw [owner, which]
    exact if_pos kind
  · refine exec_setContactOwner ⟨hl, hop, hn, hlevel⟩ ?_
    have owner : belowOrNone 12 (arg [a, b, c] 2) = some new := hnew
    have kind : arg [a, b, c] 0 = 1 := ha
    have which : below 24 (arg [a, b, c] 1) = some o := below_of_eq hb
    unfold State.reqSetOwner
    rw [owner, which, kind]
    rfl
  · refine exec_setContact hl (State.admission_setContact hn hop ha hlevel hguard) ?_
    have which : below 24 (arg [a, b] 0) = some o := below_of_eq ha
    have state : boolOfCode (arg [a, b] 1) = some on := hb
    unfold State.reqSetContact
    rw [which, state]
    rfl
  · intro c e after
    have course := exec_contactEdge ho hr hs hf
    have isEdge : edgeTo (!c.stable) = e := by
      show edgeTo (!c.stable) = if c.stable then Edge.fall else Edge.rise
      cases c.stable <;> rfl
    refine ⟨⟨_, course, ?_⟩, fun none => ?_, fun q hq => ?_⟩
    · have inputs : (s.edge i).inputs = s.inputs.set i.val c.flip i.isLt := (State.Cued.edge s i).inputs
      show (s.edge i).inputs.set i.val { (s.edge i).inputs[i] with sampled := true } i.isLt = _
      rw [inputs, Vector.set_set, Fin.getElem_fin, Vector.getElem_set_self]
      rfl
    · rw [course, State.edge_unowned none, isEdge]
      have twice : (s.modInput i ContactIn.flip).modInput i (fun c => { c with sampled := true }) =
          s.modInput i fun _ => { after with sampled := true } := State.modInput_modInput s i _ _
      rw [← twice]
      rfl
    · intro told
      rw [course, State.edge_owned hq, isEdge]
      have isTold : (s.modInput i ContactIn.flip).notify q (.contactIn i e (some q) (s.inputs[i].edges + 1)) = told := rfl
      rw [isTold]
      refine ⟨fun supply store restart => ?_, fun stopped => ?_⟩
      · rw [State.takeEdge_fires (s := told) (s.cuesFire_iff.2 ⟨supply, store, restart⟩)]
        rfl
      · rw [State.takeEdge_waits (s := told) (State.cuesFire_false (s := s) stopped)]
  · obtain ⟨fresh, inputs⟩ := (State.Opened.settled s lines order).lines lines order.rooms
    exact ⟨_, exec_samplePeriod_closes hc lines, fresh, fun i => (inputs i).trans (ContactIn.after_eq _ _ _)⟩
  · intro sample
    have isSample : State.sample lines = sample := funext fun u => funext fun i => State.sample_spelled lines u i
    have inputs : List.finRange 16 = [0, 1, 2, 3, 4, 5, 6, 7, 8, 9, 10, 11, 12, 13, 14, 15] := by decide
    unfold State.sampleLines
    rw [isSample, inputs]

end Sys2Proof.Machine
end

section
/-! The channel chain and a room's run in a sample period: O29 (R51 to R58, R70, R81 to R86, R101, R115, R118). -/

namespace Sys2Proof.Machine

/-! ### Gain stages and saturation (R52, R56, R57) -/

theorem saturate_between (x : Int) : -8388608 ≤ saturate x ∧ saturate x ≤ 8388607 := by
  show -8388608 ≤ max (-8388608) (min 8388607 x) ∧ max (-8388608) (min 8388607 x) ≤ 8388607
  omega

theorem saturate_of_between {x : Int} (h : -8388608 ≤ x ∧ x ≤ 8388607) : saturate x = x := by
  show max (-8388608) (min 8388607 x) = x
  omega

theorem clipOf_eq (x : Int) : clipOf x = if x < -8388608 ∨ 8388607 < x then 1 else 0 := by
  show (if max (-8388608) (min 8388607 x) = x then 0 else 1) = _
  split <;> split <;> omega

theorem gainRaw_eq (x : Int) (k : Nat) : gainRaw x k = (x * k + 32768) / 65536 := rfl

theorem gainRaw_unity (x : Int) : gainRaw x 65536 = x := by
  rw [gainRaw_eq]
  omega

theorem gainRaw_zero (x : Int) : gainRaw x 0 = 0 := by
  rw [gainRaw_eq]
  omega

theorem gainRaw_of_zero (k : Nat) : gainRaw 0 k = 0 := by
  rw [gainRaw_eq, Int.zero_mul]
  decide

/-- A gain of at most unity keeps a sample a sample (R57). -/
theorem gainRaw_between {x : Int} {k : Nat} (hx : -8388608 ≤ x ∧ x ≤ 8388607) (hk : k ≤ 65536) :
    -8388608 ≤ gainRaw x k ∧ gainRaw x k ≤ 8388607 := by
  have nonneg : (0 : Int) ≤ k := Int.natCast_nonneg k
  have low : -8388608 * (k : Int) ≤ x * k := Int.mul_le_mul_of_nonneg_right hx.1 nonneg
  have high : x * (k : Int) ≤ 8388607 * k := Int.mul_le_mul_of_nonneg_right hx.2 nonneg
  rw [gainRaw_eq]
  generalize x * (k : Int) = y at low high
  omega

/-! ### The chain of a channel (R53 to R57) -/

section
variable {ch : ChanEq} {hist : Vector Hist 8} {g d p : Nat} {x : Int}

theorem sectionStage_transparent (h : ∀ i : Fin 8, ch.slots[i].tag ≠ .active) : sectionStage ch hist x = ⟨x, 0, hist⟩ :=
  List.foldlRecOn (motive := fun o : SectionOut => o = ⟨x, 0, hist⟩) (List.finRange 8) (sectionSlot ch) rfl fun o ho i _ => by
    rw [sectionSlot, if_neg (h i), ho]

theorem chain_transparent (h : ∀ i : Fin 8, ch.slots[i].tag ≠ .active) (ht : ch.trim = 65536) (hx : -8388608 ≤ x ∧ x ≤ 8388607) :
    chain ch hist 65536 65536 65536 x = ⟨x, x, 0, hist⟩ := by
  have clip : clipOf x = 0 := if_pos (saturate_of_between hx)
  simp only [chain, sectionStage_transparent h, ht, gainRaw_unity, saturate_of_between hx, clip]

theorem chain_w (ch : ChanEq) (hist : Vector Hist 8) (g d p : Nat) (x : Int) :
    (chain ch hist g d p x).w = gainRaw (gainRaw (saturate (gainRaw (chain ch hist g d p x).t g)) d) p := rfl

theorem chain_w_between (hd : d ≤ 65536) (hp : p ≤ 65536) :
    -8388608 ≤ (chain ch hist g d p x).w ∧ (chain ch hist g d p x).w ≤ 8388607 :=
  gainRaw_between (gainRaw_between (saturate_between _) hd) hp

theorem chain_t_between : -8388608 ≤ (chain ch hist g d p x).t ∧ (chain ch hist g d p x).t ≤ 8388607 := saturate_between _

theorem chain_w_zero (h : d = 0 ∨ p = 0) : (chain ch hist g d p x).w = 0 := by
  rw [chain_w]
  rcases h with h | h
  · rw [h, gainRaw_zero, gainRaw_of_zero]
  · rw [h, gainRaw_zero]

/-- The section stage as a fold over triples: the value, the clips and the histories (R55). -/
theorem sectionStage_eq {slot : Int × Nat × Vector Hist 8 → Fin 8 → Int × Nat × Vector Hist 8}
    (hs : ∀ q i, sectionSlot ch ⟨q.1, q.2.1, q.2.2⟩ i = ⟨(slot q i).1, (slot q i).2.1, (slot q i).2.2⟩) (hist : Vector Hist 8) (x : Int) :
    let cascade := [0, 1, 2, 3, 4, 5, 6, 7].foldl slot (x, 0, hist)
    sectionStage ch hist x = ⟨cascade.1, cascade.2.1, cascade.2.2⟩ := by
  have slots : List.finRange 8 = [0, 1, 2, 3, 4, 5, 6, 7] := by decide
  unfold sectionStage
  rw [slots]
  refine List.foldl_rel (r := fun (o : SectionOut) (q : Int × Nat × Vector Hist 8) => o = ⟨q.1, q.2.1, q.2.2⟩) rfl fun i _ o q ho => ?_
  rw [ho, hs]

end

/-! ### The chains of a room (R53, R70, R118) -/

/-- A decode output in the words of the spec (R85, R86). -/
theorem decodeOut_eq (p : Profile) (st : DecodeState) (lt rt : Int) (o : DecOut) : decodeOut p st lt rt o =
    let entry : Int × Int := match o with
      | .l => p.rowL.toList.getD (st.lr + 16).toNat (0, 0)
      | .r => p.rowR.toList.getD (st.lr + 16).toNat (0, 0)
      | .c => p.rowC.toList.getD (st.cs + 16).toNat (0, 0)
      | .s => p.rowS.toList.getD (st.cs + 16).toNat (0, 0)
    if p.loaded = 15#4 then scale (entry.1 * lt + entry.2 * rt) 22 else 0 := by
  unfold decodeOut Profile.ready
  by_cases h : p.loaded = 15#4
  · rw [if_pos (decide_eq_true h)]
    cases o <;> exact (if_pos h).symm
  · rw [if_neg fun k => h (of_decide_eq_true k)]
    exact (if_neg h).symm

section
variable {rm : RoomRec} {p : Profile} {counted : Bool}

theorem RoomRec.bank_eq (rm : RoomRec) : rm.bank rm.bankInService = if rm.bankInService = .a then rm.bankA else rm.bankB := by
  cases rm.bankInService <;> rfl

theorem RoomRec.hist_eq (rm : RoomRec) : rm.hist = if rm.bankInService = .a then rm.histA else rm.histB := by
  unfold RoomRec.hist
  cases rm.bankInService <;> rfl

theorem RoomRec.setHist_eq (rm : RoomRec) (v : History) : rm.setHist v = { rm with
    histA := if rm.bankInService = .a then v else rm.histA, histB := if rm.bankInService = .a then rm.histB else v } := by
  unfold RoomRec.setHist
  split
  · next h =>
    rw [h]
    rfl
  · next h =>
    rw [h]
    rfl

/-- The room as its chains see it, where they come ahead (R58, R81, R101). -/
theorem RoomRec.asChained_eq {e : Early} (h : rm.ahead = some e) : rm.asChained = { rm with
    bankA := if rm.bankInService = .a then e.bank else rm.bankA, bankB := if rm.bankInService = .a then rm.bankB else e.bank
    histA := if rm.bankInService = .a then e.hist else rm.histA, histB := if rm.bankInService = .a then rm.histB else e.hist
    decode := e.decode, gain := { rm.gain with g := e.g }, dip := { rm.dip with d := e.d } } := by
  unfold RoomRec.asChained
  rw [h]
  dsimp only
  rw [RoomRec.setHist_eq]
  cases hb : rm.bankInService <;> rfl

/-- What the chains of a room change (R53, R115, R118). -/
theorem RoomRec.runChains_spelled (rm : RoomRec) (p : Profile) (counted : Bool) : rm.runChains p counted =
    { rm.setHist (Vector.ofFn fun k => (rm.chainOut p k).hist) with
      decode := rm.decodeStep p
      meters := if counted then Vector.ofFn fun k => rm.meters[k].take (rm.chainOut p k).t ((rm.chainOut p k).clips + (rm.source p k).2)
        else rm.meters
      demand := rm.demandNow } := by
  unfold RoomRec.runChains
  simp only [Fin.getElem_fin, Vector.getElem_ofFn, Fin.eta]

/-- The histories after a room's chains: of the bank in service those of its channels (R58). -/
theorem RoomRec.runChains_hist (rm : RoomRec) (p : Profile) (counted : Bool) :
    (rm.runChains p counted).histA = (if rm.bankInService = .a then (rm.runChains p counted).histA else rm.histA) ∧
    (rm.runChains p counted).histB = (if rm.bankInService = .a then rm.histB else (rm.runChains p counted).histB) ∧
    ∀ k : Chan, (if rm.bankInService = .a then (rm.runChains p counted).histA else (rm.runChains p counted).histB)[k] = (rm.chainOut p k).hist := by
  rw [RoomRec.runChains_spelled, RoomRec.setHist_eq]
  dsimp only
  by_cases h : rm.bankInService = .a
  · simp only [if_pos h]
    exact ⟨trivial, trivial, fun k => by simp only [Fin.getElem_fin, Vector.getElem_ofFn, Fin.eta]⟩
  · simp only [if_neg h]
    exact ⟨trivial, trivial, fun k => by simp only [Fin.getElem_fin, Vector.getElem_ofFn, Fin.eta]⟩

theorem RoomRec.runChains_decode (rm : RoomRec) (p : Profile) (counted : Bool) : (rm.runChains p counted).decode = rm.decodeStep p := by
  rw [RoomRec.runChains_spelled]

theorem RoomRec.runChains_demand (rm : RoomRec) (p : Profile) (counted : Bool) : (rm.runChains p counted).demand = rm.demandNow := by
  rw [RoomRec.runChains_spelled]

/-- A meter over a period (R118). -/
theorem RoomRec.runChains_meter (rm : RoomRec) (p : Profile) (counted : Bool) (k : Chan) : (rm.runChains p counted).meters[k] =
    if counted then rm.meters[k].take (rm.chainOut p k).t ((rm.chainOut p k).clips + (rm.source p k).2) else rm.meters[k] := by
  rw [RoomRec.runChains_spelled]
  cases counted
  · rfl
  · simp only [if_true, Fin.getElem_fin, Vector.getElem_ofFn, Fin.eta]

/-- Chains touch histories, decode state, meters and demand alone (R53). -/
theorem RoomRec.runChains_frame (rm : RoomRec) (p : Profile) (counted : Bool) : rm.runChains p counted = { rm with
    decode := (rm.runChains p counted).decode, meters := (rm.runChains p counted).meters, demand := rm.demandNow
    histA := if rm.bankInService = .a then (rm.runChains p counted).histA else rm.histA
    histB := if rm.bankInService = .a then rm.histB else (rm.runChains p counted).histB } := by
  obtain ⟨histA, histB, _⟩ := rm.runChains_hist p counted
  rw [← histA, ← histB, RoomRec.runChains_spelled, RoomRec.setHist_eq]

/-! ### Where the chains come ahead of events (assumption 18) -/

theorem RoomRec.runPeriod_now (ha : rm.ahead = none) (hr : rm.path.state = .live ∨ rm.path.state = .parked) :
    rm.runPeriod p counted = rm.runChains p counted := by
  rw [RoomRec.runPeriod, if_pos ((RoomState.runs_iff _).2 hr), ha]

theorem RoomRec.runPeriod_early {e : Early} (ha : rm.ahead = some e) (hr : rm.path.state = .live ∨ rm.path.state = .parked) :
    rm.runPeriod p counted = { rm with
      histA := if e.histStands then (rm.asChained.runChains p counted).histA else rm.histA
      histB := if e.histStands then (rm.asChained.runChains p counted).histB else rm.histB
      decode := if e.decodeStands then (rm.asChained.runChains p counted).decode else rm.decode
      meters := (rm.asChained.runChains p counted).meters
      demand := (rm.asChained.runChains p counted).demand
      ahead := none } := by
  rw [RoomRec.runPeriod, if_pos ((RoomState.runs_iff _).2 hr), ha]
  rfl

theorem RoomRec.runPeriod_silent (hr : ¬(rm.path.state = .live ∨ rm.path.state = .parked)) :
    rm.runPeriod p counted = { rm with demand := 0, ahead := none } := by
  have no : ¬rm.path.state.runs = true := mt (RoomState.runs_iff _).1 hr
  rw [RoomRec.runPeriod, if_neg no, RoomRec.demandNow, if_neg no]

theorem RoomRec.demandNow_runs (hr : rm.path.state = .live ∨ rm.path.state = .parked) :
    rm.demandNow = (if rm.formats[rm.activeFormat].mode = .mx4 then 40 else 0) + (rm.bank rm.bankInService).active :=
  if_pos ((RoomState.runs_iff _).2 hr)

theorem RoomRec.putAhead_runs (ha : rm.ahead = none) (hr : rm.path.state = .live ∨ rm.path.state = .parked) :
    rm.putAhead = { rm with ahead := some ⟨rm.bank rm.bankInService, rm.hist, rm.decode, rm.gain.g, rm.dip.d, true, true⟩ } :=
  if_pos ⟨ha, (RoomState.runs_iff _).2 hr⟩

theorem RoomRec.putAhead_stays (h : rm.ahead ≠ none ∨ ¬(rm.path.state = .live ∨ rm.path.state = .parked)) : rm.putAhead = rm :=
  if_neg fun k => h.elim (fun ha => ha k.1) fun hr => hr ((RoomState.runs_iff _).1 k.2)

end

/-- Settles O29: the chain of a channel, and the run of a room. -/
theorem chainTransparentAndInRange : Obligations.ChainTransparentAndInRange := by
  refine ⟨fun ch hist x hs ht h1 h2 => ?_, fun ch hist g d p x hd hp => ?_, fun ch hist g d p x => ?_, fun rm p counted => ?_⟩
  · rw [chain_transparent hs ht ⟨h1, h2⟩]
    exact ⟨rfl, rfl, rfl, rfl⟩
  · exact ⟨(chain_w_between hd hp).1, (chain_w_between hd hp).2, chain_t_between.1, chain_t_between.2, chain_w_zero⟩
  · intro sat clip slot cascade tap out
    have isClip (v : Int) : clipOf v = clip v := clipOf_eq v
    have stage : sectionStage ch hist x = ⟨cascade.1, cascade.2.1, cascade.2.2⟩ := by
      refine sectionStage_eq (slot := slot) (fun q i => ?_) hist x
      by_cases active : ch.slots[i].tag = .active
      · simp only [sectionSlot, if_pos active, isClip, slot]
        rfl
      · simp only [sectionSlot, if_neg active, slot]
    simp only [chain, stage, isClip]
    exact ⟨trivial, rfl, rfl, rfl⟩
  · intro t sat lt rt mx4 bank hist decoded source out runs
    have isBank : rm.bank rm.bankInService = bank := rm.bank_eq
    have isHist : rm.hist = hist := rm.hist_eq
    have isDecode : t.decode = rm.decodeStep p := rm.runChains_decode p counted
    have isDecoded (o : DecOut) : decodeOut p (rm.decodeStep p) lt rt o = decoded o := by
      rw [← isDecode]
      exact decodeOut_eq p t.decode lt rt o
    have isSource (k : Chan) : rm.source p k = source k := by
      show sourceValue rm.prog (decodeOut p (rm.decodeStep p) lt rt) rm.entry.map[k] = source k
      rw [show decodeOut p (rm.decodeStep p) lt rt = decoded from funext isDecoded]
      rfl
    have isOut (k : Chan) : rm.chainOut p k = out k := by
      rw [RoomRec.chainOut, isBank, isHist, isSource]
    refine ⟨fun hr => ?_, fun ha hr => ⟨RoomRec.runPeriod_now ha hr, ?_⟩, RoomRec.runPeriod_silent, RoomRec.putAhead_stays,
      fun e he hr => ?_, fun h => ?_, fun h => ?_, fun k => ⟨?_, ?_⟩, rm.runChains_frame p counted⟩
    · rw [show t.demand = _ from rm.runChains_demand p counted, RoomRec.demandNow_runs hr, isBank]
    · rw [RoomRec.putAhead_runs ha hr, isBank, isHist]
    · rw [RoomRec.runPeriod_early he hr, RoomRec.asChained_eq he]
    · rw [isDecode, RoomRec.decodeStep]
      exact if_neg h
    · have step : t.decode = rm.decode.advance p lt rt := isDecode.trans (if_pos h)
      simp only [step, Int.abs_eq_natAbs]
      exact ⟨rfl, rfl, rfl, rfl, rfl, rfl⟩
    · rw [← isOut]
      exact (rm.runChains_hist p counted).2.2 k
    · rw [← isOut, ← isSource, Nat.add_assoc]
      exact rm.runChains_meter p counted k

end Sys2Proof.Machine
end

section
/-! The sample period and its rack frame: O49 (R1, R6, R18, R41, R42, R53, R58, R117, R213). -/

namespace Sys2Proof.Machine

/-! ### Rack lane words bit by bit (R42, R213) -/

/-- A word whose bits from 24 up are the valid marker alone, without its check bit. -/
def laneWordBare (x : Int) : Word := (BitVec.ofInt 24 x).setWidth 32 ||| 0x1000000#32

theorem laneWordOut_eq (x : Int) :
    laneWordOut x = if parity (laneWordBare x).toNat 26 then laneWordBare x ||| 0x2000000#32 else laneWordBare x := rfl

theorem laneWordBare_toNat (x : Int) : (laneWordBare x).toNat = (BitVec.ofInt 24 x).toNat + 2 ^ 24 := by
  have bound : (BitVec.ofInt 24 x).toNat < 2 ^ 24 := (BitVec.ofInt 24 x).isLt
  rw [laneWordBare, BitVec.toNat_or, BitVec.toNat_setWidth, Nat.mod_eq_of_lt (by omega), Nat.lor_comm]
  exact (Nat.two_pow_add_eq_or_of_lt bound 1).symm.trans (by omega)

theorem laneWordOut_toNat (x : Int) : (laneWordOut x).toNat =
    if parity (laneWordBare x).toNat 26 then (laneWordBare x).toNat + 2 ^ 25 else (laneWordBare x).toNat := by
  have bound : (laneWordBare x).toNat < 2 ^ 25 := by
    have := (BitVec.ofInt 24 x).isLt
    rw [laneWordBare_toNat]
    omega
  rw [laneWordOut_eq]
  split
  · rw [BitVec.toNat_or, Nat.lor_comm]
    exact (Nat.two_pow_add_eq_or_of_lt bound 1).symm.trans (by omega)
  · rfl

/-- The ones below bit 25 are those of the bare word; the check bit completes them to an even number. -/
theorem laneWordOut_even (x : Int) : (List.range 26).countP (fun i => (laneWordOut x).toNat.testBit i) % 2 = 0 := by
  have bound : (laneWordBare x).toNat < 2 ^ 25 := by
    have := (BitVec.ofInt 24 x).isLt
    rw [laneWordBare_toNat]
    omega
  have split26 (n : Nat) : (List.range 26).countP (fun i => n.testBit i) =
      (List.range 25).countP (fun i => n.testBit i) + (if n.testBit 25 then 1 else 0) := by
    rw [List.range_succ, List.countP_append, List.countP_singleton]
  rw [laneWordOut_toNat]
  split
  · next odd =>
    have ones := (Nat.mod_two_ne_zero).1 (parity_eq_true.1 odd)
    rw [split26, Nat.testBit_lt_two_pow bound] at ones
    have low : (List.range 25).countP (fun i => ((laneWordBare x).toNat + 2 ^ 25).testBit i) =
        (List.range 25).countP fun i => (laneWordBare x).toNat.testBit i :=
      List.countP_congr fun i hi => by
        rw [Nat.add_comm, Nat.testBit_two_pow_add_gt (List.mem_range.1 hi)]
    have high : ((laneWordBare x).toNat + 2 ^ 25).testBit 25 = true := by
      rw [Nat.add_comm, Nat.testBit_two_pow_add_eq, Nat.testBit_lt_two_pow bound]
      rfl
    rw [split26, low, high, if_pos rfl]
    simp only [Bool.false_eq_true, if_false] at ones
    omega
  · next even => exact parity_eq_false.1 (Bool.eq_false_iff.2 even)

theorem laneWordOut_fields {x : Int} (h1 : -8388608 ≤ x) (h2 : x ≤ 8388607) :
    ((laneWordOut x).extractLsb' 0 24).toInt = x ∧ (laneWordOut x).toNat.testBit 24 = true ∧ (laneWordOut x).toNat < 2 ^ 26 := by
  have bound : (BitVec.ofInt 24 x).toNat < 2 ^ 24 := (BitVec.ofInt 24 x).isLt
  have value : (laneWordOut x).toNat = (BitVec.ofInt 24 x).toNat + 2 ^ 24 ∨
      (laneWordOut x).toNat = (BitVec.ofInt 24 x).toNat + 2 ^ 24 + 2 ^ 25 := by
    rw [laneWordOut_toNat, laneWordBare_toNat]
    split
    · exact .inr rfl
    · exact .inl rfl
  have sample : (laneWordOut x).extractLsb' 0 24 = BitVec.ofInt 24 x := by
    refine BitVec.eq_of_toNat_eq ?_
    rw [BitVec.extractLsb'_toNat, Nat.shiftRight_zero]
    omega
  refine ⟨?_, ?_, by omega⟩
  · rw [sample, BitVec.toInt_ofInt]
    exact Int.bmod_eq_of_le (by omega) (by omega)
  · rw [Nat.testBit_eq_decide_div_mod_eq]
    exact decide_eq_true (by omega)

theorem laneWordOut_zero : laneWordOut 0 = 0x3000000#32 := by decide

/-! ### The lanes of the rack frame (R6, R18, R42, R57) -/

section
variable {s : State} {r : Room} {k : Chan} {rm : RoomRec} {p : Profile}

/-- Room r's output channel k leaves on rack lane 16r + k (R6, R42). -/
theorem State.rackFrame_runPeriod (s : State) (r : Room) (k : Chan) (hj : 16 * r.val + k.val < 192) :
    s.runPeriod.rackFrame[16 * r.val + k.val] = laneWordOut ((s.room r).laneSample (s.activeProfile (s.room r)) k) := by
  have frame : s.runPeriod.rackFrame = s.formFrame := rfl
  have room : (⟨(16 * r.val + k.val) / 16, by omega⟩ : Room) = r := Fin.ext (by
    show (16 * r.val + k.val) / 16 = r.val
    omega)
  have chan : (⟨(16 * r.val + k.val) % 16, by omega⟩ : Chan) = k := Fin.ext (by
    show (16 * r.val + k.val) % 16 = k.val
    omega)
  simp only [frame, State.formFrame, Vector.getElem_ofFn, room, chan]

theorem RoomRec.laneSample_runs (h : rm.path.state = .live ∨ rm.path.state = .parked) :
    rm.laneSample p k = (rm.asChained.chainOut p k).w := by
  unfold RoomRec.laneSample
  rcases h with h | h <;> rw [h]

theorem RoomRec.laneSample_halted (h : rm.path.state = .halted) : rm.laneSample p k = 0 := by
  unfold RoomRec.laneSample
  rw [h]

/-- Besides the states that run chains and HALTED, a lane carries the pilot of the period, if any (R18). -/
theorem RoomRec.laneSample_pilot (h : rm.path.state ∈ [RoomState.off, .listen, .ready, .prove]) :
    rm.laneSample p k = match rm.path.pilotNow with
      | some x => if x.1 = k then pilot x.2 else 0
      | none => 0 := by
  unfold RoomRec.laneSample
  simp only [List.mem_cons, List.not_mem_nil, or_false] at h
  rcases h with h | h | h | h <;> rw [h] <;> rfl

theorem RoomRec.laneSample_carries {c : Chan} {n : Nat} (h : rm.path.state ∈ [RoomState.off, .listen, .ready, .prove])
    (hp : rm.path.pilotNow = some (c, n + 1)) : rm.laneSample p k = if c = k then (if n % 48 < 24 then 838861 else -838861) else 0 := by
  rw [RoomRec.laneSample_pilot h, hp]
  rfl

theorem RoomRec.laneSample_silent (h : rm.path.state ∈ [RoomState.off, .listen, .ready, .prove]) (hp : rm.path.pilotNow = none) :
    rm.laneSample p k = 0 := by
  rw [RoomRec.laneSample_pilot h, hp]

theorem Path.pilotNow_sent {q : Path} {x : Chan × Nat} (h : q.pilotSent = some x) : q.pilotNow = some x := by
  rw [Path.pilotNow, h]

theorem Path.pilotNow_prove {q : Path} {c : Chan} {n m : Nat} (h : q.pilotSent = none) (hs : q.state = .prove)
    (hp : q.proofPos = some ⟨c, n⟩) (hm : q.seqCount = m + 1) : q.pilotNow = some (c, m + 1) := by
  rw [Path.pilotNow, h]
  exact (if_pos ⟨hs, by omega⟩).trans (by rw [hp, hm]; rfl)

theorem Path.pilotNow_none {q : Path} (h : q.pilotSent = none) (hs : q.state ≠ .prove) : q.pilotNow = none := by
  rw [Path.pilotNow, h]
  exact if_neg fun k => hs k.1

theorem RoomRec.asChained_none (h : rm.ahead = none) : rm.asChained = rm := by
  rw [RoomRec.asChained, h]

theorem RoomRec.asChained_path (rm : RoomRec) : rm.asChained.path = rm.path := by
  cases h : rm.ahead with
  | none => rw [RoomRec.asChained_none h]
  | some e => rw [RoomRec.asChained_eq h]

/-- The lanes that carry 0 (R6, R42). -/
theorem RoomRec.laneSample_zero (h : (rm.path.state ∈ [RoomState.off, .listen, .ready] ∧ rm.path.pilotSent = none) ∨
    rm.path.state = .halted ∨ (rm.path.state = .parked ∧ rm.path.p = 0)) : rm.laneSample p k = 0 := by
  rcases h with ⟨home, unsent⟩ | halted | ⟨parked, low⟩
  · simp only [List.mem_cons, List.not_mem_nil, or_false] at home
    refine RoomRec.laneSample_silent (by rcases home with h | h | h <;> rw [h] <;> decide) (Path.pilotNow_none unsent ?_)
    rcases home with h | h | h <;> rw [h] <;> decide
  · exact RoomRec.laneSample_halted halted
  · rw [RoomRec.laneSample_runs (.inr parked), RoomRec.chainOut, RoomRec.asChained_path]
    exact chain_w_zero (.inr low)

theorem RoomRec.runChains_path (rm : RoomRec) (p : Profile) (counted : Bool) :
    (rm.runChains p counted).path = rm.path ∧ (rm.runChains p counted).ahead = rm.ahead := by
  have frame := rm.runChains_frame p counted
  generalize rm.runChains p counted = t at frame
  constructor <;> rw [frame]

theorem RoomRec.runEarly_path (rm : RoomRec) (e : Early) (p : Profile) (counted : Bool) :
    (rm.runEarly e p counted).path = rm.path ∧ (rm.runEarly e p counted).ahead = none := by
  unfold RoomRec.runEarly
  generalize rm.asChained.runChains p counted = out
  exact ⟨rfl, rfl⟩

/-- A room's path over the close of a period. -/
theorem RoomRec.runPeriod_path (rm : RoomRec) (p : Profile) (counted : Bool) :
    (rm.runPeriod p counted).path = rm.path ∧ (rm.runPeriod p counted).ahead = none := by
  unfold RoomRec.runPeriod
  split
  · split
    · next ha => exact ⟨(rm.runChains_path p counted).1, (rm.runChains_path p counted).2.trans ha⟩
    · exact rm.runEarly_path _ p counted
  · exact ⟨rfl, rfl⟩

theorem State.room_runPeriod (s : State) (r : Room) :
    s.runPeriod.room r = (s.room r).runPeriod (s.activeProfile (s.room r)) (!s.blockEnded) := by
  unfold State.runPeriod
  generalize s.formFrame = frame
  exact s.room_mapRooms r fun rm => rm.runPeriod (s.activeProfile rm) (!s.blockEnded)

end

end Sys2Proof.Machine
end

section
/-! A closing sample period: O49 (R1, R41, R53, R117). -/

namespace Sys2Proof.Machine

/-- What a period in progress makes of the block, the lanes and their counters: with `first` the block end has been taken in it. -/
structure State.Reached (first : Bool) (s t : State) : Prop where
  ended : t.blockEnded = (first || s.blockEnded)
  pos : t.blockPos = if first then 0 else s.blockPos
  number : t.blockNumber = if first then s.blockNumber + 1 else s.blockNumber
  lanes : ∀ l : Lane, t.lanes[l] = { s.lanes[l] with
    mark := if first then false else s.lanes[l].mark, usedErr := t.lanes[l].usedErr, concealed := t.lanes[l].concealed }
  still : s.waiting = [] → t.waiting = [] ∧ ∀ l : Lane, t.lanes[l].usedErr = s.lanes[l].usedErr ∧ t.lanes[l].concealed = s.lanes[l].concealed
  checks : t.checkTotal = s.checkTotal

section
variable {s t u : State} {first : Bool}

theorem State.Reached.refl (s : State) : State.Reached false s s :=
  ⟨rfl, rfl, rfl, fun _ => rfl, fun h => ⟨h, fun _ => ⟨rfl, rfl⟩⟩, rfl⟩

theorem State.Reached.evented (h : State.Reached first s t) (k : t.Evented u) : State.Reached first s u := by
  refine ⟨?_, ?_, ?_, fun l => ?_, fun w => ?_, ?_⟩
  · rw [← h.ended, k.frame]
  · rw [← h.pos, k.frame]
  · rw [← h.number, k.frame]
  · rw [k.lanes l, h.lanes l]
  · obtain ⟨waits, counts⟩ := h.still w
    obtain ⟨lanes, waits'⟩ := k.still waits
    exact ⟨waits', fun l => by
      rw [lanes]
      exact counts l⟩
  · rw [← h.checks, k.frame]

/-- The block end in the period (R36, R117). -/
theorem State.Reached.endBlock (h : State.Reached false s t) (order : List Room) : State.Reached true s (t.endBlock order) := by
  have lanes : (t.endBlock order).lanes = t.unmarked := by
    unfold State.endBlock
    rw [State.blockEnd_eq]
  have only : (t.endBlock order).waiting = t.waiting ∧ (t.endBlock order).checkTotal = t.checkTotal := by
    unfold State.endBlock
    rw [State.blockEnd_eq]
    have eff := (t.evaluatedAll_effect order).1
    generalize t.evaluatedAll order = v at eff
    exact ⟨by rw [eff]; rfl, by rw [eff]; rfl⟩
  obtain ⟨waiting, checks⟩ := only
  refine ⟨rfl, ?_, ?_, fun l => ?_, fun w => ?_, checks.trans h.checks⟩
  · unfold State.endBlock
    rw [State.blockEnd_eq]
    rfl
  · unfold State.endBlock
    rw [State.blockEnd_eq, h.number]
    rfl
  · rw [lanes, State.unmarked_get, h.lanes l]
    rfl
  · obtain ⟨waits, counts⟩ := h.still w
    refine ⟨waiting.trans waits, fun l => ?_⟩
    rw [lanes, State.unmarked_get]
    exact counts l

/-- The samples of the lines touch none of it (R176). -/
theorem State.Reached.lines (h : State.Reached first s t) (lines : BitVec 16) : State.Reached first s (t.sampleLines lines) := by
  have frame := (t.sampleLines_effect lines).1
  generalize t.sampleLines lines = u at frame
  refine ⟨?_, ?_, ?_, fun l => ?_, fun w => ?_, ?_⟩
  · rw [frame]
    exact h.ended
  · rw [frame]
    exact h.pos
  · rw [frame]
    exact h.number
  · rw [frame]
    exact h.lanes l
  · rw [frame]
    exact h.still w
  · rw [frame]
    exact h.checks

theorem State.Reached.takeEvents (h : State.Reached first s t) (lines : BitVec 16) (order : List Room) :
    State.Reached first s (t.takeEvents lines order) := by
  rw [State.takeEvents_lines]
  exact (h.evented (.eventsTaken t order)).lines lines

/-- The events of a closing period but for what opens it, in one state. -/
theorem State.Reached.settled (s : State) (lines : BitVec 16) (order : PeriodOrder) :
    State.Reached (decide (order.blockFirst = true ∧ s.openPeriod.blockPos = 479)) s.openPeriod (s.settled lines order) := by
  have handed : s.openPeriod.Evented (s.openPeriod.putAhead order.ahead).allHandovers :=
    .trans (.putAhead _ order.ahead) (.allHandovers _)
  unfold State.settled
  dsimp only
  generalize (s.openPeriod.putAhead order.ahead).allHandovers = s0 at handed
  have pos : s0.blockPos = s.openPeriod.blockPos := by rw [handed.frame]
  have reached := (State.Reached.refl s.openPeriod).evented handed
  by_cases first : order.blockFirst = true ∧ s.openPeriod.blockPos = 479
  · have now : order.blockFirst = true ∧ s0.blockPos + 1 = Config.meterBlock := ⟨first.1, congrArg (· + 1) (pos.trans first.2)⟩
    rw [decide_eq_true first, if_pos now]
    exact (reached.evented (.meteredBy s0 _)).endBlock order.rooms
  · have later : ¬(order.blockFirst = true ∧ s0.blockPos + 1 = Config.meterBlock) := fun k =>
      first ⟨k.1, pos ▸ Nat.succ_inj.1 k.2⟩
    rw [decide_eq_false first, if_neg later]
    exact reached

/-- The period closes: it counts for its block, and its frame leaves (R42, R117). -/
theorem State.closed_frame (u : State) : u.runPeriod.closePeriod = { u with
    rooms := u.runPeriod.rooms, rackFrame := u.runPeriod.rackFrame, periodOpen := false, blockEnded := false
    blockPos := if u.blockEnded then 0 else u.blockPos + 1
    blockEndDue := decide (480 ≤ if u.blockEnded then 0 else u.blockPos + 1) } := by
  unfold State.closePeriod State.runPeriod
  generalize u.formFrame = frame
  rfl

theorem State.room_closed (u : State) (r : Room) : u.runPeriod.closePeriod.room r =
    (u.room r).runPeriod u.profiles[(u.room r).entry.profile] (!u.blockEnded) := by
  rw [← State.activeProfile, ← State.room_runPeriod]
  unfold State.closePeriod
  generalize u.runPeriod = v
  rfl

theorem State.rackFrame_closed (u : State) (r : Room) (k : Chan) (hj : 16 * r.val + k.val < 192) :
    u.runPeriod.closePeriod.rackFrame[16 * r.val + k.val] = laneWordOut ((u.room r).laneSample (u.activeProfile (u.room r)) k) := by
  rw [← State.rackFrame_runPeriod]
  unfold State.closePeriod
  generalize u.runPeriod = v
  rfl

end

section
variable {s : State} {lines : BitVec 16} {order : PeriodOrder}

theorem exec_samplePeriod_goesOn (h : order.closes = false) (lines : BitVec 16) :
    exec (.samplePeriod lines order) s = .next (order.rooms.foldl State.readWords (s.openPeriod.putAhead order.ahead)) := by
  show Host.Outcome.next (s.samplePeriod lines order) = _
  unfold State.samplePeriod
  dsimp only
  rw [h, if_neg Bool.false_ne_true]
  rfl

/-- The tables and the commands over a closing period. -/
theorem State.Opened.closed {w : State} (h : s.Opened w) (lines : BitVec 16) (order : List Room) :
    (w.takeEvents lines order).runPeriod.closePeriod.law = s.law ∧ (w.takeEvents lines order).runPeriod.closePeriod.profiles = s.profiles ∧
    (w.takeEvents lines order).runPeriod.closePeriod.committedTotal = s.committedTotal ∧
    (w.takeEvents lines order).runPeriod.closePeriod.pending = s.pending := by
  have before := h.trans (State.Evented.eventsTaken w order).opened
  have frame := ((w.eventsTaken order).sampleLines_effect lines).1
  rw [State.takeEvents_lines, State.closed_frame]
  generalize (w.eventsTaken order).sampleLines lines = u at frame
  generalize w.eventsTaken order = e at frame before
  rw [frame]
  exact ⟨before.law, before.profiles, before.committedTotal, before.pending⟩

/-- The counts, the lanes and the frame that a closing period leaves. -/
theorem State.closed_effect {o u : State} {first : Bool} (h : State.Reached first o u) :
    let t := u.runPeriod.closePeriod
    t.blockPos = (if first = true ∨ o.blockEnded = true then 0 else o.blockPos + 1) ∧
    t.blockNumber = (if first then o.blockNumber + 1 else o.blockNumber) ∧ (t.blockEndDue = true ↔ 480 ≤ t.blockPos) ∧
    t.lanes = u.lanes ∧ t.checkTotal = o.checkTotal := by
  intro t
  have pos : (if u.blockEnded then 0 else u.blockPos + 1) = if first = true ∨ o.blockEnded = true then 0 else o.blockPos + 1 := by
    rw [h.ended, h.pos]
    cases first <;> cases o.blockEnded <;> rfl
  have frame : t = _ := u.closed_frame
  generalize u.runPeriod.rooms = rooms at frame
  generalize u.runPeriod.rackFrame = rack at frame
  rw [frame, ← pos]
  exact ⟨rfl, h.number, decide_eq_true_iff, rfl, h.checks⟩

/-- A closing SAMPLE_PERIOD. -/
theorem samplePeriod_closes (hc : order.closes = true) :
    let o := s.openPeriod
    let first := order.blockFirst = true ∧ o.blockPos = 479
    ∃ t, exec (.samplePeriod lines order) s = .next t ∧ t.periodOpen = false ∧ t.blockEnded = false ∧
      t.blockPos = (if first ∨ o.blockEnded = true then 0 else o.blockPos + 1) ∧
      t.blockNumber = (if first then o.blockNumber + 1 else o.blockNumber) ∧
      (t.blockEndDue = true ↔ 480 ≤ t.blockPos) ∧ t.inputsFresh = false ∧
      (∀ l : Lane, t.lanes[l] = { o.lanes[l] with
        mark := if first then false else o.lanes[l].mark
        usedErr := t.lanes[l].usedErr, concealed := t.lanes[l].concealed }) ∧
      (o.waiting = [] → ∀ l : Lane,
        t.lanes[l].usedErr = o.lanes[l].usedErr ∧ t.lanes[l].concealed = o.lanes[l].concealed) ∧
      t.checkTotal = o.checkTotal ∧ t.law = s.law ∧ t.profiles = s.profiles ∧
      t.committedTotal = s.committedTotal ∧ t.pending = s.pending ∧ (∀ r : Room, (t.room r).ahead = none) ∧
      ∀ (r : Room) (k : Chan) (hj : 16 * r.val + k.val < 192),
        ((t.room r).path.state ∈ [RoomState.off, .listen, .ready] ∧ (t.room r).path.pilotSent = none) ∨
          (t.room r).path.state = .halted ∨ ((t.room r).path.state = .parked ∧ (t.room r).path.p = 0) →
        t.rackFrame[16 * r.val + k.val] = 0x3000000#32 := by
  intro o first
  have settled := State.Opened.settled s lines order
  have fresh := (settled.lines lines order.rooms).1
  obtain ⟨law, profiles, total, pending⟩ := settled.closed lines order.rooms
  have reached := (State.Reached.settled s lines order).takeEvents lines order.rooms
  refine ⟨_, exec_samplePeriod_closes hc lines, ?_⟩
  generalize (s.settled lines order).takeEvents lines order.rooms = u at fresh law profiles total pending reached
  obtain ⟨pos, number, due, lanes, checks⟩ := State.closed_effect reached
  have rooms (r : Room) : (u.runPeriod.closePeriod.room r).path = (u.room r).path ∧ (u.runPeriod.closePeriod.room r).ahead = none := by
    rw [State.room_closed]
    exact RoomRec.runPeriod_path _ _ _
  have silent (r : Room) (k : Chan) (hj : 16 * r.val + k.val < 192)
      (h : ((u.room r).path.state ∈ [RoomState.off, .listen, .ready] ∧ (u.room r).path.pilotSent = none) ∨
        (u.room r).path.state = .halted ∨ ((u.room r).path.state = .parked ∧ (u.room r).path.p = 0)) :
      u.runPeriod.closePeriod.rackFrame[16 * r.val + k.val] = 0x3000000#32 := by
    rw [State.rackFrame_closed, RoomRec.laneSample_zero h, laneWordOut_zero]
  have open' : u.runPeriod.closePeriod.periodOpen = false ∧ u.runPeriod.closePeriod.blockEnded = false := by
    unfold State.closePeriod
    exact ⟨rfl, rfl⟩
  generalize u.runPeriod.closePeriod = t at *
  simp only [decide_eq_true_eq] at pos number
  have laneOf (l : Lane) : t.lanes[l] = u.lanes[l] := by rw [lanes]
  refine ⟨open'.1, open'.2, pos, number, due, fresh, fun l => ?_, fun w l => ?_, checks, law, profiles, total, pending, fun r => (rooms r).2,
    fun r k hj h => ?_⟩
  · rw [laneOf]
    have lane := reached.lanes l
    simp only [decide_eq_true_eq] at lane
    exact lane
  · rw [laneOf]
    exact (reached.still w).2 l
  · rw [(rooms r).1] at h
    exact silent r k hj h

/-! ### The events of a closing period as rows (R1, R156, R206, R208) -/

theorem State.Evented.periodOpen {t u : State} (h : t.Evented u) : u.periodOpen = t.periodOpen := by rw [h.frame]

theorem State.periodOpen_endBlock (u : State) (order : List Room) : (u.endBlock order).periodOpen = u.periodOpen := by
  unfold State.endBlock
  exact u.periodOpen_blockEnd order

/-- The closed period beside the state in which its events have been taken. -/
theorem State.closed_spelled (u : State) :
    u.runPeriod.closePeriod = { u with
      rooms := u.runPeriod.closePeriod.rooms, rackFrame := u.runPeriod.rackFrame, periodOpen := false, blockEnded := false
      blockPos := u.runPeriod.closePeriod.blockPos, blockEndDue := u.runPeriod.closePeriod.blockEndDue } := by
  rw [u.closed_frame]

/-- Where the block end has been taken, the block that begins has no period yet (R117). -/
theorem State.closed_ended {u : State} (h : u.blockEnded = true) :
    u.runPeriod.closePeriod = { u with
      rooms := u.runPeriod.closePeriod.rooms, rackFrame := u.runPeriod.rackFrame, periodOpen := false, blockEnded := false
      blockPos := 0, blockEndDue := false } := by
  rw [u.closed_frame, h]
  rfl

/-- The state in which the closing command finds its events. -/
theorem State.early_after (s : State) (order : PeriodOrder) :
    let early := s.openPeriod.putAhead order.ahead
    early.after (early.handovers.map fun x => .alarmHandover x.room) = early.allHandovers ∧ early.allHandovers.periodOpen = true := by
  intro early
  have opened : early.periodOpen = true := s.periodOpen_openPeriod
  exact ⟨State.after_handovers early.handovers opened, (State.Evented.allHandovers early).periodOpen.trans opened⟩

theorem samplePeriod_events (hc : order.closes = true) {early s0 : State} (isEarly : early = s.openPeriod.putAhead order.ahead)
    (isAfter : s0 = early.after (early.handovers.map fun x => .alarmHandover x.room)) {rows : Room → List Instr} (isRows : rows = eventRows) :
    let events (x : State) : State :=
      (x.takeWaiting.after ((visit order.rooms).flatMap rows ++ [.tableStoreInitEnd, .restartEnd])).sampleLines lines
    let ran (x : State) (r : Room) : RoomRec := (x.room r).runPeriod x.profiles[(x.room r).entry.profile] (!x.blockEnded)
    (¬(order.blockFirst = true ∧ s0.blockPos = 479) →
      let u := events s0
      ∃ t, exec (.samplePeriod lines order) s = .next t ∧
        t = { u with
          rooms := t.rooms, rackFrame := u.runPeriod.rackFrame, periodOpen := false, blockEnded := false
          blockPos := t.blockPos, blockEndDue := t.blockEndDue } ∧
        ∀ r : Room, t.room r = ran u r) ∧
    (order.blockFirst = true → s0.blockPos = 479 →
      let u := events { (s0.meteredBy (events s0)).blockEnd order.rooms with blockEnded := true }
      ∃ t, exec (.samplePeriod lines order) s = .next t ∧
        t = { u with
          rooms := t.rooms, rackFrame := u.runPeriod.rackFrame, periodOpen := false, blockEnded := false
          blockPos := 0, blockEndDue := false } ∧
        ∀ r : Room, t.room r = ran u r) := by
  intro events ran
  obtain ⟨isAll, opened⟩ := s.early_after order
  rw [← isEarly] at isAll opened
  have isS0 : s0 = early.allHandovers := isAfter.trans isAll
  have taken {x : State} (h : x.periodOpen = true) : x.takeEvents lines order.rooms = events x := by
    rw [State.takeEvents_eq h lines order.rooms, ← isRows]
  have now : s0.periodOpen = true := isS0 ▸ opened
  have settled : s.settled lines order = if order.blockFirst = true ∧ s0.blockPos = 479 then
      (s0.meteredBy (events s0)).endBlock order.rooms else s0 := by
    rw [← taken now, isS0, isEarly]
    exact if_congr (and_congr_right fun _ => Nat.succ_inj) rfl rfl
  have course := exec_samplePeriod_closes (s := s) hc lines
  rw [settled] at course
  refine ⟨fun h => ?_, fun hb hp => ?_⟩
  · rw [if_neg h, taken now] at course
    exact ⟨_, course, State.closed_spelled _, fun r => State.room_closed _ r⟩
  · rw [if_pos ⟨hb, hp⟩] at course
    have still : ((s0.meteredBy (events s0)).endBlock order.rooms).periodOpen = true :=
      (State.periodOpen_endBlock _ _).trans ((State.Evented.meteredBy s0 _).periodOpen.trans now)
    have reached : State.Reached true s0 (((s0.meteredBy (events s0)).endBlock order.rooms).takeEvents lines order.rooms) :=
      (((State.Reached.refl s0).evented (.meteredBy s0 _)).endBlock order.rooms).takeEvents lines order.rooms
    rw [taken still] at course reached
    intro u
    have isU : events ((s0.meteredBy (events s0)).endBlock order.rooms) = u := rfl
    rw [isU] at course reached
    clear_value u
    exact ⟨_, course, State.closed_ended reached.ended, fun r => State.room_closed _ r⟩

/-- Settles O49: the command that goes on and the one that closes, its events as rows, and the lanes of its frame. -/
theorem samplePeriodAndLanes : Obligations.SamplePeriodAndLanes := by
  refine ⟨fun _ _ => rfl, fun s lines order h => exec_samplePeriod_goesOn h lines, fun s lines order hc => samplePeriod_closes hc,
    fun s lines order hc => ?_, fun _ _ => rfl, fun s r k hj => ⟨fun hr => ⟨fun ha => ?_, fun e _ => ?_⟩,
      fun e he => RoomRec.asChained_eq he, fun c n m h => ?_⟩, fun x h1 h2 => ?_⟩
  · intro early s0 rows
    have isEarly : early = s.openPeriod.putAhead order.ahead := rfl
    have isAfter : s0 = early.after (early.handovers.map fun x => .alarmHandover x.room) := rfl
    have isRows : rows = eventRows := rfl
    clear_value rows s0 early
    exact samplePeriod_events hc isEarly isAfter isRows
  · rw [State.rackFrame_runPeriod, RoomRec.laneSample_runs hr, RoomRec.asChained_none ha]
    rfl
  · rw [State.rackFrame_runPeriod, RoomRec.laneSample_runs hr]
    rfl
  · rw [State.rackFrame_runPeriod]
    refine congrArg laneWordOut ?_
    rcases h with ⟨home, sent⟩ | ⟨prove, unsent, pos, count⟩
    · exact RoomRec.laneSample_carries home (Path.pilotNow_sent sent)
    · exact RoomRec.laneSample_carries (by rw [prove]; decide) (Path.pilotNow_prove unsent prove pos count)
  · intro w
    obtain ⟨sample, valid, bound⟩ := laneWordOut_fields h1 h2
    exact ⟨sample, valid, bound, laneWordOut_even x⟩

end

end Sys2Proof.Machine
end

section
/-! The nine reads: O10 (R4, R37, R80, R105, R120, R141, R149, R186, R211, R216). -/

namespace Sys2Proof.Machine

/-! ### The course of a read (R195) -/

section
variable {i : Instr} {s : State} {h : Header} {k : Kind} {body : List Payload} {fs : List Fld}

theorem exec_of_readNone (hi : request? i = some (messageOf h k body)) (hl : s.listening) (hn : s.readable) (hr : namesNone h)
    (hf : k.form = .none) (hc : k.levelClass = .any) (hlen : k.lengthOk body = true) (hb : body.length ≤ 72)
    (hs : s.serve k (messageOf h k body) = s.accept fs) : exec i s = .next (s.replied h k .ok fs) := by
  refine exec_of_message hi hl hlen hb (State.admission_read hc ?_ hn) hs
  rw [hf]
  exact decide_eq_true hr

theorem exec_of_readRoom {r : Room} (hi : request? i = some (messageOf h k body)) (hl : s.listening) (hn : s.readable)
    (hr : namesRoom h r) (hf : k.form = .room) (hc : k.levelClass = .any) (hlen : k.lengthOk body = true) (hb : body.length ≤ 72)
    (hs : (messageOf h k body).room?.getD 0 = r → s.serve k (messageOf h k body) = s.accept fs) :
    exec i s = .next (s.replied h k .ok fs) := by
  refine exec_of_message hi hl hlen hb (State.admission_read hc ?_ hn) (hs ?_)
  · have named : h.room.toNat = r.val := hr
    have bound : h.room.toNat < 12 := named ▸ r.isLt
    rw [hf]
    exact decide_eq_true bound
  · rw [messageOf_room hr]
    rfl

/-- READ_PART is answered in every state of the store and of a restart (R197, R211). -/
theorem State.admission_readPart (hn : namesNone h) : s.admission .readPart (messageOf h .readPart []) = none := by
  have form : Kind.form .readPart = .none := rfl
  have passes : RoomForm.passes .none h.room = true := decide_eq_true hn
  have level : s.levelPasses .readPart ((messageOf h .readPart []).room?.getD 0) (messageOf h .readPart []) = true := rfl
  have read : Kind.isRead .readPart = true := rfl
  unfold State.admission
  rw [form, level, read]
  show (if RoomForm.passes .none h.room = false then some Result.badRoom else _) = none
  rw [passes]
  simp

theorem namesNone_room (hn : namesNone h) (k : Kind) (body : List Payload) : (messageOf h k body).room? = none := by
  have code : h.room.toNat = 15 := hn
  show below 12 h.room.toNat = none
  rw [code]
  rfl

end

/-! ### The fields of a room's record (R4, R38, R43, R60, R65, R69, R81, R90, R116, R150, R165) -/

theorem joinFields_cons (a : List Fld) (l : List (List Fld)) : joinFields (a :: l) = a ++ joinFields l := rfl

theorem joinFields_nil : joinFields [] = [] := rfl

theorem Path.shownCount_eq (p : Path) :
    p.shownCount = if p.phase = .none then none else some ((p.ramp.map (·.n)).getD p.seqCount) := by
  unfold Path.shownCount
  cases p.ramp <;> rfl

theorem ProofPos.fields_eq (o : Option ProofPos) : optFields [4, 2] ProofPos.fields o = match o with
    | some pos => [.bits 1 0, .bits 4 pos.chan.val, .bits 2 pos.attempt]
    | none => [.bits 1 1, .bits 4 0, .bits 2 0] := by
  cases o <;> rfl

theorem Fade.fields_eq (o : Option Fade) : optFields [17, 17, 22, 22] Fade.fields o = match o with
    | some f => [.bits 1 0, .bits 17 f.g0, .bits 17 f.g1, .bits 22 f.len, .bits 22 f.n]
    | none => [.bits 1 1, .bits 17 0, .bits 17 0, .bits 22 0, .bits 22 0] := by
  cases o <;> rfl

theorem OutSrc.fields_eq (x : OutSrc) : x.fields = match x with
    | .program c => [.bits 1 0, .bits 5 c.val]
    | .decode o => [.bits 1 0, .bits 5 o.code]
    | .none => [.bits 1 1, .bits 5 0] := by
  cases x <;> rfl

theorem SourceMap.fields_eq (m : SourceMap) : m.fields = joinFields
    [m.prog.toList.flatMap fun l => Fld.opt 8 (l.map (·.val)), Fld.opt 8 (m.tc.map (·.val))] := by
  rw [joinFields_cons, joinFields_cons, joinFields_nil, List.append_nil]
  rfl

theorem Fld.signed_six (x : Int) : Fld.signed 6 x = .bits 6 (x % 64).toNat := by
  rw [Fld.signed, BitVec.toNat_ofInt]
  rfl

theorem RoomRec.decodeTerm_eq (rm : RoomRec) : rm.decodeTerm = if ∃ i : Fin 4, rm.formats[i].mode = .mx4 then 40 else 0 := by
  refine if_congr ?_ rfl rfl
  simp only [List.any_eq_true, List.mem_finRange, true_and, decide_eq_true_eq]

/-- READ_ROOM in the words of the spec. -/
theorem RoomRec.roomFields_spelled (rm : RoomRec) {outSrc : OutSrc → List Fld} {map : SourceMap → List Fld}
    {format : FormatEntry → List Fld} {timers : List Fld} {fade proof : List Fld} {count dipStep : Option Nat} {term demand : Nat}
    (isOutSrc : OutSrc.fields = outSrc) (isMap : ∀ m : SourceMap, m.fields = map m) (isTimers : rm.timerFields = timers)
    (isFormat : ∀ e : FormatEntry, joinFields [[.bits 1 e.mode.code, .bits 2 e.profile.val], e.map.toList.flatMap outSrc] = format e)
    (isFade : optFields [17, 17, 22, 22] Fade.fields rm.gain.fade = fade) (isProof : optFields [4, 2] ProofPos.fields rm.path.proofPos = proof)
    (isCount : rm.path.shownCount = count) (isStep : rm.dip.shownStep = dipStep) (isTerm : rm.decodeTerm = term)
    (isDemand : (if rm.path.state.runs then rm.demand else 0) = demand) :
    let p := rm.path
    rm.roomFields = joinFields
        [[.bits 3 p.state.code, .bits 3 p.phase.code, .bool p.proven, .bits 16 p.fitted.toNat, .bits 23 p.proofMin,
            .bits 23 p.proofMax, .bits 1 p.policy.code],
          p.record.toList.flatMap fun e => [.bits 2 e.result.code, .bits 2 e.attempts],
          [.bits 1 p.halt.code, .bits 17 p.p, .bits 2 rm.activeFormat.val, .bits 1 rm.activeSource.code,
            .bits 1 rm.bankInService.code, .bits 7 rm.gain.step.val, .bool rm.gain.mute, .bits 2 rm.guard.val],
          [.bool p.lastRack.present, .bool p.lastRack.wake, .bool p.lastRack.valid, .bits 23 p.lastRack.level],
          Fld.opt 14 count, proof, map rm.main, map rm.spare,
          [.bits 2 rm.tc.state.code], Fld.opt 24 rm.tc.last,
          [.bits 17 rm.gain.g], fade,
          [.bits 2 rm.dip.stage.code], Fld.opt 8 dipStep, [.bits 17 rm.dip.d], Fld.opt 2 (rm.dip.fmtSlot.map (·.val)),
          Fld.opt 1 (rm.dip.srcSlot.map Source.code), Fld.opt 1 (rm.dip.bankSlot.map BankName.code), [.bool rm.dip.followOn],
          rm.formats.toList.flatMap format,
          [.bits 24 rm.decode.eL.toNat, .bits 24 rm.decode.eR.toNat, .bits 24 rm.decode.eS.toNat, .bits 24 rm.decode.eD.toNat,
            .bits 6 (rm.decode.lr % 64).toNat, .bits 6 (rm.decode.cs % 64).toNat],
          [.bits 8 rm.bankA.active, .bits 8 rm.bankA.rejected, .bits 8 rm.bankB.active, .bits 8 rm.bankB.rejected],
          [.bits 8 rm.commitment, .bits 6 term, .bits 8 (max rm.bankA.active rm.bankB.active), .bits 8 demand],
          [.bits 8 rm.cursor, .bits 8 (baseOf rm.list), .bits 8 rm.list.length, .bits 8 rm.draft.length],
          timers] := by
  intro p
  have isFormats : FormatEntry.fields = format := funext fun e => by
    rw [← isFormat, ← isOutSrc]
    simp only [joinFields_cons, joinFields_nil, List.append_nil]
    rfl
  simp only [RoomRec.roomFields, RoomRec.recordFields, Gain.fields, Dip.fields, DecodeState.fields, RackWord.fields, RoomRec.sectionTerm,
    Machine.recordFields, isMap, isTimers, isFormats, isFade, isProof, isCount, isStep, isTerm, isDemand, Fld.signed_six, joinFields_cons,
    joinFields_nil, List.append_nil, List.append_assoc, List.cons_append, List.nil_append, p]

/-! ### The lanes of READ_COUNTS (R37) -/

theorem below_of_lt {n v : Nat} (h : v < n) : below n v = some ⟨v, h⟩ := below_of_eq rfl

/-- The run of lanes from `a` on, as a part of all lanes in order. -/
theorem laneRun_eq {a b : Nat} (h : a + b ≤ 256) : (List.range b).filterMap (fun i => below 256 (a + i)) =
    (List.finRange 256).filter fun l => decide (a ≤ l.val ∧ l.val < a + b) := by
  refine List.map_injective_iff.2 Fin.val_injective ?_
  have run : ((List.range b).filterMap fun i => below 256 (a + i)).map Fin.val = List.range' a b := by
    rw [List.map_filterMap, List.range'_eq_map_range]
    refine Eq.trans (List.filterMap_congr (g := fun x => some (a + x)) fun i hi => ?_) (congrFun List.filterMap_eq_map' (List.range b))
    have := List.mem_range.1 hi
    rw [below_of_lt (by omega)]
    rfl
  have part : ((List.finRange 256).filter fun l => decide (a ≤ l.val ∧ l.val < a + b)).map Fin.val =
      (List.range 256).filter fun l => decide (a ≤ l ∧ l < a + b) := by
    rw [← List.map_coe_finRange_eq_range, List.filter_map]
    rfl
  rw [run, part]
  have cut : List.range 256 = List.range' 0 a ++ (List.range' a b ++ List.range' (a + b) (256 - (a + b))) := by
    rw [List.range'_append_1, List.range_eq_range']
    have tail := List.range'_append_1 (s := 0) (m := a) (n := b + (256 - (a + b)))
    rw [Nat.zero_add] at tail
    rw [tail]
    congr 1
    omega
  rw [cut, List.filter_append, List.filter_append]
  have before : (List.range' 0 a).filter (fun l => decide (a ≤ l ∧ l < a + b)) = [] :=
    List.filter_eq_nil_iff.2 fun l hl => by
      have := List.mem_range'_1.1 hl
      simp
      omega
  have within : (List.range' a b).filter (fun l => decide (a ≤ l ∧ l < a + b)) = List.range' a b :=
    List.filter_eq_self.2 fun l hl => decide_eq_true (List.mem_range'_1.1 hl)
  have beyond : (List.range' (a + b) (256 - (a + b))).filter (fun l => decide (a ≤ l ∧ l < a + b)) = [] :=
    List.filter_eq_nil_iff.2 fun l hl => by
      have := List.mem_range'_1.1 hl
      simp
      omega
  rw [before, within, beyond, List.append_nil, List.nil_append]

/-! ### Alarm entries and cue entries in a reply (R141, R149, R216) -/

theorem AlarmEntry.shown_eq (which : Option Room) (x : AlarmEntry × Nat) :
    (match which with | some r => decide (x.1.room = r) | none => true) = decide (which = none ∨ which = some x.1.room) := by
  cases which with
  | none => simp
  | some r =>
    refine decide_eq_decide.2 ?_
    simp [eq_comm]

theorem RoomRec.alarmFields_eq (rm : RoomRec) : rm.alarmFields = joinFields
    [[.bits 4 rm.mask.kinds.toNat, .bits 13 rm.mask.remaining, .bits 16 rm.unlisted.toNat],
      allConds.flatMap fun x => [.bits 2 (rm.cond x).phase.code, .bits 13 (rm.cond x).run, .bool (rm.cond x).unlisted]] := by
  rw [joinFields_cons, joinFields_cons, joinFields_nil, List.append_nil]
  rfl

theorem cueFields_eq (x : Cue × Nat) : cueFields x = joinFields [x.1.words.map .word, [.bits 7 x.2]] := by
  rw [joinFields_cons, joinFields_cons, joinFields_nil, List.append_nil]
  rfl

theorem Trigger.word_eq (g : Trigger) : g.word = match g with
    | .at f => f
    | .alarm k chan => 1 * 2 ^ 26 + 16 * chan.code + k.code
    | .contact i e => 2 * 2 ^ 26 + 256 * e.code + i.val
    | .manual => 3 * 2 ^ 26 := by
  match g with
  | .at f => rfl
  | .alarm k chan =>
    simp only [Trigger.word, Nat.shiftLeft_eq]
    omega
  | .contact i e =>
    simp only [Trigger.word, Nat.shiftLeft_eq]
    omega
  | .manual => rfl

theorem Action.words_eq (x : Action) : x.words =
    let bit (yes : Bool) : Nat := if yes then 1 else 0
    match x with
      | .setFormat i => [1 * 2 ^ 24 + i.val, 0]
      | .setSource m => [2 * 2 ^ 24 + m.code, 0]
      | .selectBank n => [3 * 2 ^ 24 + n.code, 0]
      | .fade step ms => [4 * 2 ^ 24 + step.toNat, ms.toNat]
      | .mute yes => [5 * 2 ^ 24 + bit yes, 0]
      | .mask kinds n => [6 * 2 ^ 24 + kinds.toNat, n.toNat]
      | .contact o on => [7 * 2 ^ 24 + o.val, bit on]
      | .go t => [8 * 2 ^ 24 + t.code, 0]
      | .timerStart t unit n rep target =>
        [9 * 2 ^ 24 + target * 2 ^ 7 + bit rep * 2 ^ 6 + unit.code * 2 ^ 4 + t.toNat, n.toNat]
      | .timerStop t => [10 * 2 ^ 24 + t.toNat, 0] := by
  cases x with
  | timerStart t unit n rep target => simp only [Action.words, Nat.shiftLeft_eq, bit]
  | setFormat | setSource | selectBank | fade | mute | mask | contact | go | timerStop => rfl

theorem Cue.words_eq (c : Cue) :
    c.words = (c.actions.length * 2 ^ 20 + c.gate.val * 2 ^ 16 + c.number) :: c.trigger.word :: c.actions.flatMap Action.words := by
  rw [Cue.words, Nat.shiftLeft_eq, Nat.shiftLeft_eq]

/-! ### The nine replies -/

section
variable {s : State} {h : Header} {r : Room} {a b c : Payload}

theorem exec_readPart (hl : s.listening) (hn : namesNone h) : exec (.readPart h []) s = .next (s.replied h .readPart .ok s.partFields) :=
  exec_of_message rfl hl rfl (by simp) (State.admission_readPart hn) rfl

theorem exec_readRoom (hl : s.listening) (hn : s.readable) (hr : namesRoom h r) :
    exec (.readRoom h []) s = .next (s.replied h .readRoom .ok (s.room r).roomFields) :=
  exec_of_readRoom rfl hl hn hr rfl rfl rfl (by simp) fun named => by
    show s.reqReadRoom ((messageOf h .readRoom []).room?.getD 0) = _
    rw [named]
    rfl

theorem exec_readCounts (hl : s.listening) (hn : s.readable) (hr : namesNone h) (h0 : 0 < b.toNat) (h28 : b.toNat ≤ 28)
    (h256 : a.toNat + b.toNat ≤ 256) : exec (.readCounts h [a, b]) s = .next (s.replied h .readCounts .ok (joinFields
      [[.bits 5 b.toNat], ((List.finRange 256).filter fun l => decide (a.toNat ≤ l.val ∧ l.val < a.toNat + b.toNat)).flatMap s.countFields,
        [.bits 32 s.checkTotal.toNat, .bits 32 s.mgmt.malformed.toNat, .bits 32 s.mgmt.overflow.toNat,
          .bits 32 s.mgmt.discardTotal.toNat]])) := by
  refine exec_of_readNone rfl hl hn hr rfl rfl rfl (by simp) ?_
  have inRange : ¬(b.toNat = 0 ∨ 28 < b.toNat ∨ 256 < a.toNat + b.toNat) := by omega
  rw [← laneRun_eq h256]
  exact if_neg inRange

theorem exec_readMeters (hl : s.listening) (hn : s.readable) (hr : namesRoom h r) :
    exec (.readMeters h []) s = .next (s.replied h .readMeters .ok (joinFields
      [(s.room r).meters.toList.flatMap fun m => [.bits 24 m.lastP, .bits 13 m.lastC, .bool m.lastLoss],
        Fld.opt 32 ((s.room r).lastEval.map (·.toNat))])) :=
  exec_of_readRoom rfl hl hn hr rfl rfl rfl (by simp) fun named => by
    show s.reqReadMeters ((messageOf h .readMeters []).room?.getD 0) = _
    rw [named]
    rfl

theorem exec_readAlarms {which : Option Room} (hl : s.listening) (hn : s.readable) (hr : h.room.toNat = (which.map (·.val)).getD 15)
    (h47 : a.toNat ≤ 47) (h0 : 0 < b.toNat) (h8 : b.toNat ≤ 8) :
    let part := s.alarms.zipIdx.filter fun x => decide (which = none ∨ which = some x.1.room)
    let shown := (part.drop a.toNat).take b.toNat
    exec (.readAlarms h [a, b]) s = .next (s.replied h .readAlarms .ok (joinFields
      [[.bits 6 part.length, .bits 4 shown.length], shown.flatMap entryFields,
        match which with | none => [] | some r => (s.room r).alarmFields])) := by
  intro part shown
  have room : (messageOf h .readAlarms [a, b]).room? = which := by
    cases which with
    | none => exact namesNone_room hr _ _
    | some r => exact messageOf_room hr _ _
  have passes : (Kind.form .readAlarms).passes h.room = true := by
    show RoomForm.passes .roomOrNone h.room = true
    refine Bool.or_eq_true_iff.2 ?_
    cases which with
    | none => exact .inr (decide_eq_true hr)
    | some r => exact .inl (decide_eq_true (hr ▸ r.isLt))
  refine exec_of_message rfl hl rfl (by simp) (State.admission_read rfl passes hn) ?_
  show s.reqReadAlarms (messageOf h .readAlarms [a, b]).room? [a, b] = _
  have inRange : ¬(47 < a.toNat ∨ b.toNat = 0 ∨ 8 < b.toNat) := by omega
  rw [room]
  refine (if_neg inRange).trans ?_
  have isPart : (s.alarms.zipIdx.filter fun x => match which with | some r => decide (x.1.room = r) | none => true) = part :=
    List.filter_congr fun x _ => AlarmEntry.shown_eq which x
  cases which with
  | none =>
    rw [isPart]
    rfl
  | some r =>
    rw [isPart]
    rfl

theorem exec_readCues (hl : s.listening) (hn : s.readable) (hr : namesRoom h r) (h1 : a.toNat ≤ 1) (h127 : b.toNat ≤ 127)
    (h0 : 0 < c.toNat) (h4 : c.toNat ≤ 4) :
    let l := if a.toNat = 0 then (s.room r).list else (s.room r).draft
    let shown := (l.zipIdx.drop b.toNat).take c.toNat
    exec (.readCues h [a, b, c]) s = .next (s.replied h .readCues .ok (joinFields
      [[.bits 8 (s.room r).list.length, .bits 8 (s.room r).draft.length, .bits 10 s.cueUsed,
          .bits 8 (s.room r).cursor, .bits 8 (baseOf (s.room r).list)],
        (s.room r).timerFields, [.bits 3 shown.length], shown.flatMap cueFields])) := by
  intro l shown
  refine exec_of_readRoom rfl hl hn hr rfl rfl rfl (by simp) fun named => ?_
  show s.reqReadCues ((messageOf h .readCues [a, b, c]).room?.getD 0) [a, b, c] = _
  have inRange : ¬(1 < a.toNat ∨ 127 < b.toNat ∨ c.toNat = 0 ∨ 4 < c.toNat) := by omega
  rw [named]
  exact if_neg inRange

theorem exec_readBank {n : BankName} {k : Chan} (hl : s.listening) (hn : s.readable) (hr : namesRoom h r)
    (ha : BankName.ofCode a.toNat = some n) (hb : b.toNat = k.val) :
    exec (.readBank h [a, b]) s = .next (s.replied h .readBank .ok (joinFields
      [((s.room r).bank n).chans[k].slots.toList.flatMap SlotRec.fields,
        [.bits 17 ((s.room r).bank n).chans[k].trim, .bits 8 ((s.room r).bank n).active, .bits 8 ((s.room r).bank n).rejected,
          .bool (decide ((s.room r).bankInService = n)), .bool (decide ((s.room r).dip.bankSlot = some n))]])) := by
  refine exec_of_readRoom rfl hl hn hr rfl rfl rfl (by simp) fun named => ?_
  show s.reqReadBank ((messageOf h .readBank [a, b]).room?.getD 0) [a, b] = _
  have bank : BankName.ofCode (arg [a, b] 0) = some n := ha
  have chan : below 16 (arg [a, b] 1) = some k := below_of_eq hb
  rw [named, State.reqReadBank, bank, chan]

theorem exec_readProfile {p : Fin 4} {row : Row} (hl : s.listening) (hn : s.readable) (hr : namesNone h) (ha : a.toNat = p.val)
    (hb : Row.ofCode b.toNat = some row) :
    exec (.readProfile h [a, b]) s = .next (s.replied h .readProfile .ok (joinFields
      [[.bits 2 s.profiles[p].stateCode, .bits 4 s.profiles[p].loaded.toNat, .bits 24 s.profiles[p].floor, .bits 4 s.profiles[p].attack,
          .bits 4 s.profiles[p].release],
        (s.profiles[p].row row).toList.flatMap fun c => [.coef c.1, .coef c.2],
        (List.finRange 12).map fun r => .bool ((s.room r).holdsProfile p)])) := by
  refine exec_of_readNone rfl hl hn hr rfl rfl rfl (by simp) ?_
  show s.reqReadProfile [a, b] = _
  have profile : below 4 (arg [a, b] 0) = some p := below_of_eq ha
  have isRow : Row.ofCode (arg [a, b] 1) = some row := hb
  rw [State.reqReadProfile, profile, isRow]

theorem exec_readContacts (hl : s.listening) (hn : s.readable) (hr : namesNone h) :
    exec (.readContacts h []) s = .next (s.replied h .readContacts .ok (joinFields
      [s.inputs.toList.flatMap fun c => joinFields [ownerFields c.owner, [levelField c.stable, .bits 10 c.run, .bits 16 c.edges.toNat]],
        s.outputs.toList.flatMap fun o => joinFields [ownerFields o.owner, [.bool o.on], o.lastSet.fields],
        s.inputs.toList.map fun c => levelField c.line])) :=
  exec_of_readNone rfl hl hn hr rfl rfl rfl (by simp) rfl

end

/-- Settles O10: the nine reads, and a cue entry's words. -/
theorem readsAnswer : Obligations.ReadsAnswer := by
  unfold Obligations.ReadsAnswer
  intro timers
  have isTimers (rm : RoomRec) : rm.timerFields = timers rm := rfl
  refine ⟨fun s h r a b c hl => ⟨exec_readPart hl, fun hn hr => ?_, fun hn hr h0 h28 h256 => exec_readCounts hl hn hr h0 h28 h256,
    fun hn hr => exec_readMeters hl hn hr, fun which hn hr h47 h0 h8 => ?_, fun hn hr h1 h127 h0 h4 => ?_, fun n k hn hr ha hb =>
    exec_readBank hl hn hr ha hb, fun p row hn hr ha hb => exec_readProfile hl hn hr ha hb, fun hn hr => ?_⟩, fun c => ?_⟩
  · intro rm p lane map outSrc format count dipStep
    rw [exec_readRoom hl hn hr]
    refine congrArg (fun fs => Host.Outcome.next (s.replied h .readRoom .ok fs)) ?_
    exact (s.room r).roomFields_spelled (funext OutSrc.fields_eq) SourceMap.fields_eq (isTimers _) (fun _ => rfl) (Fade.fields_eq _)
      (ProofPos.fields_eq _) (Path.shownCount_eq _) rfl (RoomRec.decodeTerm_eq _) (if_congr (RoomState.runs_iff _) rfl rfl)
  · intro part shown entry named
    rw [exec_readAlarms hl hn hr h47 h0 h8]
    cases which with
    | none => rfl
    | some r =>
      refine congrArg (fun fs => Host.Outcome.next (s.replied h .readAlarms .ok fs)) ?_
      simp only [RoomRec.alarmFields_eq]
      rfl
  · intro l shown entry
    rw [exec_readCues hl hn hr h1 h127 h0 h4]
    refine congrArg (fun fs => Host.Outcome.next (s.replied h .readCues .ok fs)) ?_
    have isEntry : cueFields = entry := funext cueFields_eq
    rw [isEntry, isTimers]
  · intro owner input last
    rw [exec_readContacts hl hn hr]
    refine congrArg (fun fs => Host.Outcome.next (s.replied h .readContacts .ok fs)) ?_
    have isLast : LastSet.fields = last := funext fun x => by cases x <;> rfl
    rw [isLast]
    rfl
  · intro bit trigger action
    have isTrigger : c.trigger.word = trigger := c.trigger.word_eq
    have isAction : Action.words = action := funext Action.words_eq
    rw [Cue.words_eq, isTrigger, isAction]

end Sys2Proof.Machine
end

section
/-! The outbound sender: O11 (R191, R193, R202 to R204, R209, R214, R217). -/

namespace Sys2Proof.Machine

/-! ### One slot after another (R203) -/

/-- The part with another message in hand. -/
def State.inHand (s : State) (x : Option Sending) : State := { s with mgmt := { s.mgmt with sending := x } }

section
variable {s : State} {isReply : Bool} {w v : OutWord} {rest : List OutWord}

theorem State.fillSlot_continues (h : s.mgmt.sending = some ⟨isReply, w :: v :: rest⟩) :
    s.fillSlot = (s.inHand (some ⟨isReply, v :: rest⟩), some w) := by
  unfold State.fillSlot State.sendNext
  rw [h]
  rfl

theorem State.fillSlot_ends (h : s.mgmt.sending = some ⟨isReply, [w]⟩) : s.fillSlot = (s.finish isReply, some w) := by
  unfold State.fillSlot State.sendNext
  rw [h]
  rfl

/-- An idle sender chooses first. -/
theorem State.fillSlot_idle (h : s.mgmt.sending = none) : s.fillSlot = s.choose.sendNext := if_pos h

theorem State.fillSlot_busy {x : Sending} (h : s.mgmt.sending = some x) : s.fillSlot = s.sendNext := if_neg (by rw [h]; nofun)

theorem State.fillSlot_reply {m : Reply} (h : s.mgmt.sending = none) (hm : s.mgmt.holder = some m) :
    s.fillSlot = (s.inHand (some ⟨true, m.message⟩)).fillSlot := by
  have chosen : s.choose = s.inHand (some ⟨true, m.message⟩) := by
    unfold State.choose
    rw [hm]
    rfl
  rw [State.fillSlot_idle h, chosen]
  exact (State.fillSlot_busy rfl).symm

theorem State.fillSlot_notice {n : Notice} {ns : List Notice} (h : s.mgmt.sending = none) (hm : s.mgmt.holder = none)
    (hn : s.mgmt.notices = n :: ns) : s.fillSlot =
      ({ s with mgmt := { s.mgmt with notices := ns, sending := some ⟨false, n.message⟩ } } : State).fillSlot := by
  have chosen : s.choose = { s with mgmt := { s.mgmt with notices := ns, sending := some ⟨false, n.message⟩ } } := by
    unfold State.choose
    rw [hm, hn]
  rw [State.fillSlot_idle h, chosen]
  exact (State.fillSlot_busy rfl).symm

theorem State.fillSlot_empty (h : s.mgmt.sending = none) (hm : s.mgmt.holder = none) (hn : s.mgmt.notices = []) :
    s.fillSlot = (s, none) := by
  have chosen : s.choose = s := by
    unfold State.choose
    rw [hm, hn]
  rw [State.fillSlot_idle h, chosen, State.sendNext, h]

/-! ### A frame of four slots (R191) -/

theorem exec_outboundFeedFrame (h : s.periodOpen = true) : exec .outboundFeedFrame s = .next s.sendFrame := by
  show Host.Outcome.next s.openPeriod.sendFrame = _
  rw [State.openPeriod_of_open h]

theorem State.sendFrame_fills (h : s.outFresh = false) : s.sendFrame = s.fillFrame := if_neg (Bool.eq_false_iff.1 h)

/-- Four words of a message that has more of them leave in one frame. -/
theorem State.fillFrame_continues {w0 w1 w2 w3 w4 : OutWord} (h : s.mgmt.sending = some ⟨isReply, w0 :: w1 :: w2 :: w3 :: w4 :: rest⟩) :
    s.fillFrame = { s.inHand (some ⟨isReply, w4 :: rest⟩) with
      outFrame := #v[outWord s.holdMark (some w0), outWord s.holdMark (some w1), outWord s.holdMark (some w2), outWord s.holdMark (some w3)] } := by
  have slot (a b : OutWord) (l : List OutWord) : (s.inHand (some ⟨isReply, a :: b :: l⟩)).fillSlot =
      (s.inHand (some ⟨isReply, b :: l⟩), some a) := State.fillSlot_continues rfl
  unfold State.fillFrame
  simp only [State.fillSlot_continues h, slot]

/-- A frame whose first slot begins a message is the frame that continues it. -/
theorem State.fillFrame_begins {t : State} (h : s.fillSlot = t.fillSlot) (hold : s.holdMark = t.holdMark) : s.fillFrame = t.fillFrame := by
  unfold State.fillFrame
  rw [h, hold]

theorem State.fillFrame_empty (h : s.fillSlot = (s, none)) : s.fillFrame = { s with
    outFrame := #v[outWord s.holdMark none, outWord s.holdMark none, outWord s.holdMark none, outWord s.holdMark none] } := by
  unfold State.fillFrame
  simp only [h]

/-! ### The end of a reply (R193, R203) -/

theorem State.finish_last (h : s.mgmt.queue = []) : s.finish true = { s with mgmt := { s.mgmt with sending := none, holder := none } } := by
  unfold State.finish State.takeHead
  dsimp only
  rw [if_pos rfl, h]

theorem State.finish_next {q : Request} {l : List Request} (h : s.mgmt.queue = q :: l) :
    let idle : State := { s with mgmt := { s.mgmt with sending := none, holder := none, queue := l } }
    s.finish true = (idle.answer q).1.repliedTo q (idle.answer q).2.1 (idle.answer q).2.2 := by
  unfold State.finish State.takeHead
  dsimp only
  rw [if_pos rfl, h]
  rfl

end

end Sys2Proof.Machine
end

section
/-! Words and messages on the trunk: O11 (R202, R204, R214, R217). -/

namespace Sys2Proof.Machine

/-! ### Slot words bit by bit (R214) -/

/-- A slot word as a number: form and hold mark as `q`, the check bit, the payload. -/
def slotNumber (q : Nat) (check : Bool) (p : Nat) : Nat := 2 ^ 28 * (2 * q + check.toNat) + p

section
variable {q p : Nat} {check : Bool}

theorem slotNumber_ones (hp : p < 2 ^ 28) : (List.range 32).countP (fun i => (slotNumber q check p).testBit i) =
    (List.range 28).countP (fun i => p.testBit i) + check.toNat +
      ((q.testBit 0).toNat + (q.testBit 1).toNat + (q.testBit 2).toNat) := by
  have bits (i : Nat) : (slotNumber q check p).testBit i = if i < 28 then p.testBit i else (2 * q + check.toNat).testBit (i - 28) :=
    Nat.testBit_two_pow_mul_add _ hp i
  have high (i : Nat) : (2 * q + check.toNat).testBit (i + 1) = q.testBit i := by
    rw [Nat.testBit_succ]
    congr 1
    have := check.toNat_le
    omega
  have low : (2 * q + check.toNat).testBit 0 = check := by
    rw [Nat.testBit_zero]
    cases check <;> simp
  have one (b : Bool) : (if b = true then 1 else 0) = b.toNat := by cases b <;> rfl
  have payload : (List.range 28).countP (fun i => (slotNumber q check p).testBit i) = (List.range 28).countP (fun i => p.testBit i) :=
    List.countP_congr fun i hi => by rw [bits, if_pos (List.mem_range.1 hi)]
  have split32 : List.range 32 = List.range 28 ++ [28] ++ [29] ++ [30] ++ [31] := by
    rw [← List.range_succ, ← List.range_succ, ← List.range_succ, ← List.range_succ]
  rw [split32]
  simp only [List.countP_append, List.countP_singleton, payload, one]
  rw [bits 28, bits 29, bits 30, bits 31]
  simp only [Nat.lt_irrefl, if_false, Nat.sub_self, low, show ¬29 < 28 from by omega, show ¬30 < 28 from by omega,
    show ¬31 < 28 from by omega]
  rw [show 29 - 28 = 0 + 1 from rfl, show 30 - 28 = 1 + 1 from rfl, show 31 - 28 = 2 + 1 from rfl, high, high, high]
  omega

/-- A slot word ahead of its check bit. -/
def slotWordBare (form : Nat) (hold : Bool) (x : Payload) : Word :=
  x.setWidth 32 ||| (BitVec.ofNat 32 form <<< 30) ||| (if hold then 0x20000000#32 else 0#32)

theorem slotWordOut_eq (form : Nat) (hold : Bool) (x : Payload) : slotWordOut form hold x =
    if parity (slotWordBare form hold x).toNat 32 then slotWordBare form hold x ||| 0x10000000#32 else slotWordBare form hold x := rfl

/-- A word without its check bit, and with it where that completes an even number of ones. -/
theorem slotWordOut_toNat {form : Nat} (hf : form < 4) (hold : Bool) (x : Payload) : ∃ check : Bool,
    (slotWordOut form hold x).toNat = slotNumber (2 * form + hold.toNat) check x.toNat ∧
    (List.range 32).countP (fun i => (slotWordOut form hold x).toNat.testBit i) % 2 = 0 := by
  have hx : x.toNat < 2 ^ 28 := x.isLt
  have bare : (slotWordBare form hold x).toNat = slotNumber (2 * form + hold.toNat) false x.toNat := by
    have top : (BitVec.ofNat 32 form <<< 30 : Word).toNat = 2 ^ 30 * form := by
      rw [BitVec.toNat_shiftLeft, BitVec.toNat_ofNat, Nat.shiftLeft_eq]
      omega
    have mark : (if hold then 0x20000000#32 else 0#32 : Word).toNat = 2 ^ 29 * hold.toNat := by cases hold <;> rfl
    have small := hold.toNat_le
    rw [slotWordBare, BitVec.toNat_or, BitVec.toNat_or, BitVec.toNat_setWidth, Nat.mod_eq_of_lt (by omega), top, mark, Nat.lor_assoc, Nat.lor_comm,
      Nat.lor_assoc, ← Nat.two_pow_add_eq_or_of_lt (by omega) hold.toNat, ← Nat.two_pow_add_eq_or_of_lt (by omega) form, slotNumber]
    simp only [Bool.toNat_false]
    omega
  have checked : (slotNumber (2 * form + hold.toNat) false x.toNat) ||| 2 ^ 28 = slotNumber (2 * form + hold.toNat) true x.toNat := by
    have low : 2 ^ 28 ||| x.toNat = 2 ^ 28 + x.toNat := by
      have joined := Nat.two_pow_add_eq_or_of_lt hx 1
      rw [Nat.mul_one] at joined
      exact joined.symm
    have split29 : slotNumber (2 * form + hold.toNat) false x.toNat = 2 ^ 29 * (2 * form + hold.toNat) ||| x.toNat := by
      rw [← Nat.two_pow_add_eq_or_of_lt (by omega) (2 * form + hold.toNat), slotNumber]
      simp only [Bool.toNat_false]
      omega
    rw [split29, Nat.lor_assoc, Nat.lor_comm x.toNat, low, ← Nat.two_pow_add_eq_or_of_lt (by omega) (2 * form + hold.toNat), slotNumber]
    simp only [Bool.toNat_true]
    omega
  rw [slotWordOut_eq]
  split
  · next odd =>
    have value : (slotWordBare form hold x ||| 0x10000000#32).toNat = slotNumber (2 * form + hold.toNat) true x.toNat := by
      rw [BitVec.toNat_or, bare]
      exact checked
    refine ⟨true, value, ?_⟩
    have ones := parity_eq_true.1 odd
    rw [bare, slotNumber_ones hx] at ones
    rw [value, slotNumber_ones hx]
    simp only [Bool.toNat_false, Bool.toNat_true] at ones ⊢
    omega
  · next even =>
    refine ⟨false, bare, ?_⟩
    exact parity_eq_false.1 (Bool.eq_false_iff.2 even)

/-- The fields of a slot word (R191, R214). -/
theorem slotWordOut_fields {form : Nat} (hf : form < 4) (hold : Bool) (x : Payload) :
    (slotWordOut form hold x).toNat / 2 ^ 30 = form ∧ (slotWordOut form hold x).toNat.testBit 29 = hold ∧
    (slotWordOut form hold x).toNat % 2 ^ 28 = x.toNat ∧
    (List.range 32).countP (fun i => (slotWordOut form hold x).toNat.testBit i) % 2 = 0 := by
  obtain ⟨check, value, even⟩ := slotWordOut_toNat hf hold x
  have hx : x.toNat < 2 ^ 28 := x.isLt
  have small := hold.toNat_le
  have small' := check.toNat_le
  refine ⟨?_, ?_, ?_, even⟩
  · rw [value, slotNumber]
    omega
  · rw [value, slotNumber, Nat.testBit_eq_decide_div_mod_eq]
    cases hold
    · simp only [Bool.toNat_false]
      refine decide_eq_false ?_
      omega
    · simp only [Bool.toNat_true]
      refine decide_eq_true ?_
      omega
  · rw [value, slotNumber]
    omega

end

/-! ### The bit stream of a packed body (R217) -/

/-- A number is a run of bits, bit 0 first. -/
structure Spells (n : Nat) (l : List Bool) : Prop where
  bound : n < 2 ^ l.length
  bits : ∀ i, n.testBit i = l.getD i false

/-- The stream after one more field. -/
def Fld.sent (stream : List Bool) : Fld → List Bool
  | .bits width v => stream ++ (List.range width).map v.testBit
  | .word v => stream ++ List.replicate ((stream.length + 27) / 28 * 28 - stream.length) false ++ (List.range 28).map v.testBit

section
variable {n : Nat} {l : List Bool}

theorem getD_map_range_testBit (w v i : Nat) : ((List.range w).map v.testBit).getD i false = (v % 2 ^ w).testBit i := by
  rw [Nat.testBit_mod_two_pow]
  by_cases h : i < w
  · rw [List.getD_eq_getElem _ _ (by simpa using h), List.getElem_map, List.getElem_range, decide_eq_true h, Bool.true_and]
  · rw [List.getD_eq_default _ _ (by simpa using h), decide_eq_false h, Bool.false_and]

theorem Spells.append (h : Spells n l) (w v : Nat) : Spells (n + (v % 2 ^ w) <<< l.length) (l ++ (List.range w).map v.testBit) := by
  have value : n + (v % 2 ^ w) <<< l.length = 2 ^ l.length * (v % 2 ^ w) + n := by
    rw [Nat.shiftLeft_eq, Nat.mul_comm, Nat.add_comm]
  have small : v % 2 ^ w < 2 ^ w := Nat.mod_lt _ (Nat.two_pow_pos w)
  refine ⟨?_, fun i => ?_⟩
  · rw [value, List.length_append, List.length_map, List.length_range, Nat.pow_add]
    calc 2 ^ l.length * (v % 2 ^ w) + n < 2 ^ l.length * (v % 2 ^ w) + 2 ^ l.length := Nat.add_lt_add_left h.bound _
      _ = 2 ^ l.length * (v % 2 ^ w + 1) := (Nat.mul_succ _ _).symm
      _ ≤ 2 ^ l.length * 2 ^ w := Nat.mul_le_mul_left _ small
  · rw [value, Nat.testBit_two_pow_mul_add _ h.bound]
    by_cases hi : i < l.length
    · rw [if_pos hi, h.bits, List.getD_append _ _ _ _ hi]
    · rw [if_neg hi, List.getD_append_right _ _ _ _ (Nat.not_lt.1 hi), getD_map_range_testBit]

theorem Spells.pad (h : Spells n l) (k : Nat) : Spells n (l ++ List.replicate k false) := by
  refine ⟨?_, fun i => ?_⟩
  · rw [List.length_append, List.length_replicate]
    exact Nat.lt_of_lt_of_le h.bound (Nat.pow_le_pow_right (by omega) (by omega))
  · by_cases hi : i < l.length
    · rw [h.bits, List.getD_append _ _ _ _ hi]
    · rw [h.bits, List.getD_append_right _ _ _ _ (Nat.not_lt.1 hi), List.getD_eq_default _ _ (Nat.not_lt.1 hi)]
      by_cases hk : i - l.length < k
      · rw [List.getD_eq_getElem _ _ (by simpa using hk), List.getElem_replicate]
      · rw [List.getD_eq_default _ _ (by simpa using hk)]

/-- The packed number and the length of the stream so far. -/
theorem packField_sent {acc : Nat × Nat} (hl : acc.2 = l.length) (h : Spells acc.1 l) (f : Fld) :
    (packField acc f).2 = (Fld.sent l f).length ∧ Spells (packField acc f).1 (Fld.sent l f) := by
  cases f with
  | bits w v =>
    refine ⟨?_, ?_⟩
    · simp [packField, Fld.sent, hl]
    · rw [packField, hl]
      exact h.append w v
  | word v =>
    have padded := h.pad (wordUp l.length - l.length)
    have reach : l.length ≤ wordUp l.length := by
      unfold wordUp
      omega
    have length : (l ++ List.replicate (wordUp l.length - l.length) false).length = wordUp l.length := by
      rw [List.length_append, List.length_replicate]
      omega
    have sent : Fld.sent l (.word v) = l ++ List.replicate (wordUp l.length - l.length) false ++ (List.range 28).map v.testBit := rfl
    rw [sent, packField, hl]
    refine ⟨?_, ?_⟩
    · rw [List.length_append, length, List.length_map, List.length_range]
    · have joined := padded.append 28 v
      rw [length] at joined
      exact joined

theorem packField_foldl (fs : List Fld) : (fs.foldl packField (0, 0)).2 = (fs.foldl Fld.sent []).length ∧
    Spells (fs.foldl packField (0, 0)).1 (fs.foldl Fld.sent []) :=
  List.foldl_rel (r := fun (acc : Nat × Nat) (l : List Bool) => acc.2 = l.length ∧ Spells acc.1 l)
    ⟨rfl, by decide, fun i => Nat.zero_testBit i⟩ fun f _ _ _ h => packField_sent h.1 h.2 f

/-- The words of a packed body are the stream cut into runs of 28 bits. -/
theorem pack_stream (fs : List Fld) : (pack fs).length = ((fs.foldl Fld.sent []).length + 27) / 28 ∧
    ∀ i j, i < (pack fs).length → j < 28 → ((pack fs).getD i 0).getLsbD j = (fs.foldl Fld.sent []).getD (28 * i + j) false := by
  obtain ⟨length, spells⟩ := packField_foldl fs
  have words : (pack fs).length = ((fs.foldl Fld.sent []).length + 27) / 28 := by
    rw [pack, List.length_map, List.length_range, length]
  refine ⟨words, fun i j hi hj => ?_⟩
  rw [List.getD_eq_getElem _ _ hi]
  simp only [pack, List.getElem_map, List.getElem_range]
  rw [BitVec.getLsbD_ofNat, decide_eq_true hj, Bool.true_and, Nat.testBit_shiftRight, spells.bits]

end

/-! ### Messages (R202, R204) -/

theorem startPayload_eq (addressee length cls : Nat) :
    startPayload addressee length cls = BitVec.ofNat 28 (addressee + 2 ^ 8 * length + 2 ^ 16 * cls) := by
  rw [startPayload, Nat.shiftLeft_eq, Nat.shiftLeft_eq, Nat.mul_comm length, Nat.mul_comm cls]

theorem Reply.message_eq (m : Reply) : m.message =
    (true, BitVec.ofNat 28 (m.originator.toNat + 2 ^ 8 * m.body.length)) ::
      (false, BitVec.ofNat 28 (m.kind.toNat + 2 ^ 6 * m.result.code + 2 ^ 11 * m.tag.toNat)) :: m.body.map fun w => (false, w) := by
  rw [Reply.message, startPayload_eq, Nat.shiftLeft_eq, Nat.shiftLeft_eq, Nat.mul_comm m.result.code, Nat.mul_comm m.tag.toNat]
  rfl

theorem Snapshot.words_eq (x : Snapshot) : x.words =
    [BitVec.ofNat 28 (x.state.code + 2 ^ 3 * x.phase.code + 2 ^ 7 * x.format.val + 2 ^ 9 * x.source.code +
        2 ^ 10 * x.bank.code + 2 ^ 11 * x.tc.code), BitVec.ofNat 28 x.g, BitVec.ofNat 28 (x.last.getD (2 ^ 24))] := by
  rw [Snapshot.words, Nat.shiftLeft_eq, Nat.shiftLeft_eq, Nat.shiftLeft_eq, Nat.shiftLeft_eq, Nat.shiftLeft_eq,
    Nat.mul_comm x.phase.code, Nat.mul_comm x.format.val, Nat.mul_comm x.source.code, Nat.mul_comm x.bank.code, Nat.mul_comm x.tc.code]
  cases x.last <;> rfl

/-- A notice's words by its own kind and fields (R204, R217). -/
theorem Notice.message_eq (n : Notice) {own : Nat × List Fld} {snapshot : List Payload} (isOwn : (n.body.code, n.body.fields) = own)
    (isSnapshot : (match n.room with | some (_, x) => x.words | none => []) = snapshot) :
    let words := snapshot ++ pack own.2
    n.message = (true, BitVec.ofNat 28 (2 ^ 8 * words.length + 2 ^ 16)) ::
      (false, BitVec.ofNat 28 (own.1 + 2 ^ 5 * ((n.room.map (·.1.val)).getD 15) + 2 ^ 9 * n.dropped)) ::
        words.map fun w => (false, w) := by
  intro words
  subst isOwn
  have tail : n.tail = words := congrArg (· ++ pack n.body.fields) isSnapshot
  have start : startPayload 0 n.tail.length 1 = BitVec.ofNat 28 (2 ^ 8 * words.length + 2 ^ 16) := by
    rw [tail, startPayload_eq, Nat.zero_add, Nat.mul_one]
  refine congrArg₂ List.cons (congrArg (Prod.mk true) start) (congrArg₂ List.cons ?_ (congrArg (List.map fun w => (false, w)) tail))
  refine congrArg (fun v => (false, BitVec.ofNat 28 v)) ?_
  simp only [Nat.shiftLeft_eq]
  cases n.room with
  | none =>
    show n.body.code + 15 * 2 ^ 5 + n.dropped * 2 ^ 9 = n.body.code + 2 ^ 5 * 15 + 2 ^ 9 * n.dropped
    omega
  | some x =>
    show n.body.code + x.1.val * 2 ^ 5 + n.dropped * 2 ^ 9 = n.body.code + 2 ^ 5 * x.1.val + 2 ^ 9 * n.dropped
    omega

end Sys2Proof.Machine
end

section
/-! The outbound sender's obligation: O11 (R191, R193, R202 to R204, R209, R214, R217). -/

namespace Sys2Proof.Machine

/-! ### The fields of notices (R204, R217) -/

theorem condFields_eq (c : CondId) : condFields c = match c with
    | .level k x => [.bits 5 k.val, .bits 3 x.code]
    | .rack => [.bits 5 16, .bits 3 4] := by
  cases c with
  | level k x => cases x <;> rfl
  | rack => rfl

theorem Trigger.fields_eq (t : Trigger) : t.fields = match t with
    | .at f => [.bits 2 0, .bits 24 f]
    | .alarm k c => [.bits 2 1, .bits 3 k.code, .bits 5 c.code]
    | .contact i e => [.bits 2 2, .bits 4 i.val, .bits 1 e.code]
    | .manual => [.bits 2 3] := by
  cases t <;> rfl

theorem Cause.fields_eq {cond : CondId → List Fld} (isCond : condFields = cond) (c : Cause) : c.fields = match c with
    | .timecode jump f => [.bits 3 0, .bool jump, .bits 24 f]
    | .alarm x => .bits 3 1 :: cond x
    | .contact i e => [.bits 3 2, .bits 4 i.val, .bits 1 e.code]
    | .cueGo o => [.bits 3 3, .bits 6 o.toNat]
    | .timer t => [.bits 3 4, .bits 2 t.val] := by
  subst isCond
  cases c <;> rfl

/-- The kind's code and its own fields (Table 11-3). -/
theorem NoticeBody.own_eq {cond : CondId → List Fld} {trigger : Trigger → List Fld} {cause : Cause → List Fld} (isCond : condFields = cond)
    (isTrigger : Trigger.fields = trigger) (isCause : Cause.fields = cause) (b : NoticeBody) : (b.code, b.fields) = match b with
      | .roomState left => (1, [.bits 3 left.code])
      | .rackFound => (2, [])
      | .rackGone left => (3, [.bits 3 left.code])
      | .rackWake => (4, [])
      | .proofDone proven record =>
        (5, .bool proven :: record.toList.flatMap fun e => [.bits 2 e.result.code, .bits 2 e.attempts])
      | .alarmRaised c p clips count => (6, cond c ++ [.bits 24 p, .bits 13 clips, .bool count.isSome] ++ Fld.opt 8 count)
      | .alarmCleared c listed block => (7, cond c ++ [.bool listed, .bits 32 block.toNat])
      | .alarmListFull c unlisted => (8, cond c ++ [.bits 16 unlisted.toNat])
      | .cueFired number t c => (10, .bits 14 number :: (trigger t ++ cause c))
      | .cueFailed number c failed =>
        (11, .bits 14 number :: (cause c ++ .bits 3 failed.length :: failed.flatMap fun x => [.bits 3 x.1, .bits 5 x.2.code]))
      | .timerOrphan t target => (12, [.bits 2 t.val, .bits 14 target])
      | .timecode before after lastBefore lastAfter jump =>
        (13, [.bits 2 before.code, .bits 2 after.code] ++ Fld.opt 24 lastBefore ++ Fld.opt 24 lastAfter ++ [.bool jump])
      | .bankSwapped left entered => (14, [.bits 1 left.code, .bits 1 entered.code])
      | .supply asserted => (15, [.bool asserted])
      | .contactIn i e owner edges =>
        (16, [.bits 4 i.val, .bits 1 e.code] ++ Fld.opt 4 (owner.map (·.val)) ++ [.bits 16 edges.toNat])
      | .queueOverflow q => (17, [.bits 6 q.originator.toNat, .bits 2 q.level.toNat, .bits 6 q.kind.toNat,
          .bits 4 q.room.toNat, .bits 16 q.tag.toNat])
      | .storeReady => (18, [])
      | .restarted => (19, []) := by
  subst isCond isTrigger isCause
  cases b <;> rfl

theorem Fld.coef_eq (x : Int) : Fld.coef x = .word (x % 2 ^ 24).toNat := by
  rw [Fld.coef, BitVec.toNat_ofInt]
  rfl

/-! ### Frames of a message (R191, R203) -/

section
variable {s : State}

/-- A frame while one is due, from the state that its first slot finds. -/
theorem exec_outboundFeedFrame_fills (ho : s.periodOpen = true) (hf : s.outFresh = false) :
    exec .outboundFeedFrame s = .next s.fillFrame := by
  rw [exec_outboundFeedFrame ho, State.sendFrame_fills hf]

theorem exec_outboundFeedFrame_begins {t : State} (ho : s.periodOpen = true) (hf : s.outFresh = false) (h : s.fillSlot = t.fillSlot)
    (hold : s.holdMark = t.holdMark) : exec .outboundFeedFrame s = .next t.fillFrame := by
  rw [exec_outboundFeedFrame_fills ho hf, State.fillFrame_begins h hold]

end

/-- Settles O11: the slots, the frames they make, their words, and the words of a reply and of a notice. -/
theorem outboundSenderFills : Obligations.OutboundSenderFills := by
  refine ⟨fun s => ?_, fun s ho hf => exec_outboundFeedFrame_fills ho hf, fun s => ⟨fun isReply w v rest h => State.fillSlot_continues h,
    fun w h => State.fillSlot_ends h, fun m h hm => State.fillSlot_reply h hm, fun n ns h hm hn => State.fillSlot_notice h hm hn,
    fun h hm hn => State.fillSlot_empty h hm hn⟩, fun s ho hf => ?_, fun s ho hf => ?_, fun s w h => ⟨fun hq => ?_, fun q rest hq => ?_⟩,
    fun hold x => ?_, Reply.message_eq, fun n => ?_, pack_stream, fun width n yes x => ⟨rfl, rfl, rfl, Fld.coef_eq x⟩,
    rfl, rfl, rfl, rfl, rfl, rfl, rfl⟩
  · rw [exec_outboundFeedFrame s.periodOpen_openPeriod]
    rfl
  · rw [exec_outboundFeedFrame ho]
    exact congrArg Host.Outcome.next (if_pos hf)
  · refine ⟨fun isReply w0 w1 w2 w3 w4 rest h => ?_, fun m w0 w1 w2 w3 w4 rest h hm e => ?_,
      fun n ns w0 w1 w2 w3 w4 rest h hm hn e => ?_, fun h hm hn => ?_⟩
    · rw [exec_outboundFeedFrame_fills ho hf, State.fillFrame_continues h]
      rfl
    · rw [exec_outboundFeedFrame_begins ho hf (State.fillSlot_reply h hm) rfl,
        State.fillFrame_continues (congrArg (fun l => some (Sending.mk true l)) e)]
      rfl
    · rw [exec_outboundFeedFrame_begins ho hf (State.fillSlot_notice h hm hn) rfl,
        State.fillFrame_continues (congrArg (fun l => some (Sending.mk false l)) e)]
      rfl
    · rw [exec_outboundFeedFrame_fills ho hf, State.fillFrame_empty (State.fillSlot_empty h hm hn)]
      rfl
  · rw [State.fillSlot_ends h, State.finish_last hq]
  · rw [State.fillSlot_ends h, State.finish_next hq]
  · match x with
    | none => exact slotWordOut_fields (by omega) hold 0
    | some (true, p) => exact slotWordOut_fields (by omega) hold p
    | some (false, p) => exact slotWordOut_fields (by omega) hold p
  · intro cond trigger cause own snapshot
    have isCond : condFields = cond := funext condFields_eq
    have isTrigger : Trigger.fields = trigger := funext Trigger.fields_eq
    have isCause : Cause.fields = cause := funext (Cause.fields_eq isCond)
    refine n.message_eq (NoticeBody.own_eq isCond isTrigger isCause n.body) ?_
    cases hr : n.room with
    | none =>
      show [] = snapshot
      simp only [snapshot, hr]
    | some x =>
      show x.2.words = snapshot
      simp only [snapshot, hr, Snapshot.words_eq]

end Sys2Proof.Machine
end
